-- ==== Sys2Proof/Word.lean ====
section
/-! DEFINITION. The machine's words, the widths of rule R6, and the register numbers of rule R20.
Only the types: every operation on them that a test could show wrong stands under Sys2Proof/Machine. -/

namespace Sys2Proof

/-- A 32-bit word (R6): a general register, an address, an ARM instruction. -/
abbrev Word := BitVec 32

/-- A 16-bit halfword (R6): a Thumb instruction. -/
abbrev Half := BitVec 16

/-- An 8-bit byte (R6), the unit that an address names (R60). -/
abbrev Byte := BitVec 8

/-- A register number as the ARM set's four-bit fields name it, r0 to r15 (R20). -/
abbrev Reg := Fin 16

/-- A register number as the Thumb set's three-bit fields name it, r0 to r7 (R20). -/
abbrev LowReg := Fin 8

end Sys2Proof
end

