-- ==== Sys2Proof/Syntax.lean ====
section
/-! DEFINITION. The instructions of both sets as data (R2, R100): one constructor for each instruction of
spec/opcode_table.json in each set; a row that is only another operand form of an instruction (register
shifted by immediate, by register, rotated immediate; immediate or register offset; the parts "i of n" of one
form) is an operand of its constructor. Operands stand in the assembler's order (R148). Bits that the decoder
ignores (R105) are no operand. -/

namespace Sys2Proof

/-- The condition field, bits 31:28 of every ARM instruction (R106, R180). -/
inductive Cond where
  | eq | ne | cs | cc | mi | pl | vs | vc | hi | ls | ge | lt | gt | le | al | nv
deriving DecidableEq, Repr

/-- The two-bit shift type (R200). RRX is `ror` by an immediate 0. -/
inductive ShiftType where
  | lsl | lsr | asr | ror
deriving DecidableEq, Repr

/-- Operand 2 of a data-processing instruction, its three forms (R109). -/
inductive Operand2 where
  /-- (a) `imm8` rotated right by `2 * rot` -/
  | imm (rot : BitVec 4) (imm8 : BitVec 8)
  /-- (b) `rm` shifted by the immediate amount `imm5` -/
  | shiftImm (type : ShiftType) (imm5 : BitVec 5) (rm : Reg)
  /-- (c) `rm` shifted by the low byte of `rs` -/
  | shiftReg (type : ShiftType) (rs rm : Reg)
deriving DecidableEq, Repr

/-- How a single transfer uses its base (R283): the fields P and W. -/
inductive IndexMode where
  /-- P = 1, W = 0: access at base plus offset, base unchanged -/
  | offset
  /-- P = 1, W = 1: access at base plus offset, base written back -/
  | preIndexed
  /-- P = 0: access at base, base plus offset written back -/
  | postIndexed
deriving DecidableEq, Repr

/-- The offset of LDR, STR, LDRB, STRB and their T forms (R116, R281, R285). -/
inductive Offset where
  | imm (imm12 : BitVec 12)
  | shifted (type : ShiftType) (imm5 : BitVec 5) (rm : Reg)
deriving DecidableEq, Repr

/-- The offset of the halfword, signed and doubleword transfers (R115, R302). -/
inductive HalfOffset where
  | imm (imm8 : BitVec 8)
  | reg (rm : Reg)
deriving DecidableEq, Repr

/-- The four addressing variants of LDM and STM (R117, R331). -/
inductive BlockMode where
  | ia | ib | da | db
deriving DecidableEq, Repr

/-- Which half of a register a halfword multiply reads (R251). -/
inductive HalfSel where
  | bottom | top
deriving DecidableEq, Repr

/-- The R bit of MRS: CPSR or the current mode's SPSR (R120). -/
inductive PsrSel where
  | cpsr | spsr
deriving DecidableEq, Repr

/-- The field mask of MSR, bits 19:16 (R121). -/
structure PsrFields where
  f : Bool
  s : Bool
  x : Bool
  c : Bool
deriving DecidableEq, Repr

/-- The operand of MSR (R121, R376). -/
inductive MsrOperand where
  | imm (rot : BitVec 4) (imm8 : BitVec 8)
  | reg (rm : Reg)
deriving DecidableEq, Repr

/-- An instruction of either set. The ARM set's constructors carry their condition `c`; `sb` is the S bit;
the Thumb set's constructors begin with `t`. -/
inductive Instr where
  -- ARM set: data processing (R108, R213 to R229)
  | and (c : Cond) (sb : Bool) (rd rn : Reg) (op2 : Operand2)
  | eor (c : Cond) (sb : Bool) (rd rn : Reg) (op2 : Operand2)
  | sub (c : Cond) (sb : Bool) (rd rn : Reg) (op2 : Operand2)
  | rsb (c : Cond) (sb : Bool) (rd rn : Reg) (op2 : Operand2)
  | add (c : Cond) (sb : Bool) (rd rn : Reg) (op2 : Operand2)
  | adc (c : Cond) (sb : Bool) (rd rn : Reg) (op2 : Operand2)
  | sbc (c : Cond) (sb : Bool) (rd rn : Reg) (op2 : Operand2)
  | rsc (c : Cond) (sb : Bool) (rd rn : Reg) (op2 : Operand2)
  | tst (c : Cond) (rn : Reg) (op2 : Operand2)
  | teq (c : Cond) (rn : Reg) (op2 : Operand2)
  | cmp (c : Cond) (rn : Reg) (op2 : Operand2)
  | cmn (c : Cond) (rn : Reg) (op2 : Operand2)
  | orr (c : Cond) (sb : Bool) (rd rn : Reg) (op2 : Operand2)
  | mov (c : Cond) (sb : Bool) (rd : Reg) (op2 : Operand2)
  | bic (c : Cond) (sb : Bool) (rd rn : Reg) (op2 : Operand2)
  | mvn (c : Cond) (sb : Bool) (rd : Reg) (op2 : Operand2)
  -- ARM set: multiply (R110 to R112, R252 to R262)
  | mul (c : Cond) (sb : Bool) (rd rm rs : Reg)
  | mla (c : Cond) (sb : Bool) (rd rm rs rn : Reg)
  | umull (c : Cond) (sb : Bool) (rdLo rdHi rm rs : Reg)
  | umlal (c : Cond) (sb : Bool) (rdLo rdHi rm rs : Reg)
  | smull (c : Cond) (sb : Bool) (rdLo rdHi rm rs : Reg)
  | smlal (c : Cond) (sb : Bool) (rdLo rdHi rm rs : Reg)
  | smlaxy (c : Cond) (x y : HalfSel) (rd rm rs rn : Reg)
  | smlawy (c : Cond) (y : HalfSel) (rd rm rs rn : Reg)
  | smulwy (c : Cond) (y : HalfSel) (rd rm rs : Reg)
  | smlalxy (c : Cond) (x y : HalfSel) (rdLo rdHi rm rs : Reg)
  | smulxy (c : Cond) (x y : HalfSel) (rd rm rs : Reg)
  -- ARM set: saturating arithmetic (R113, R362 to R365)
  | qadd (c : Cond) (rd rm rn : Reg)
  | qsub (c : Cond) (rd rm rn : Reg)
  | qdadd (c : Cond) (rd rm rn : Reg)
  | qdsub (c : Cond) (rd rm rn : Reg)
  -- ARM set: single transfers (R116, R290 to R297); the T forms are always post-indexed
  | ldr (c : Cond) (mode : IndexMode) (up : Bool) (rd rn : Reg) (off : Offset)
  | str (c : Cond) (mode : IndexMode) (up : Bool) (rd rn : Reg) (off : Offset)
  | ldrb (c : Cond) (mode : IndexMode) (up : Bool) (rd rn : Reg) (off : Offset)
  | strb (c : Cond) (mode : IndexMode) (up : Bool) (rd rn : Reg) (off : Offset)
  | ldrt (c : Cond) (up : Bool) (rd rn : Reg) (off : Offset)
  | strt (c : Cond) (up : Bool) (rd rn : Reg) (off : Offset)
  | ldrbt (c : Cond) (up : Bool) (rd rn : Reg) (off : Offset)
  | strbt (c : Cond) (up : Bool) (rd rn : Reg) (off : Offset)
  -- ARM set: halfword, signed, doubleword (R115, R305 to R311), swap (R114, R315, R316)
  | ldrh (c : Cond) (mode : IndexMode) (up : Bool) (rd rn : Reg) (off : HalfOffset)
  | strh (c : Cond) (mode : IndexMode) (up : Bool) (rd rn : Reg) (off : HalfOffset)
  | ldrsb (c : Cond) (mode : IndexMode) (up : Bool) (rd rn : Reg) (off : HalfOffset)
  | ldrsh (c : Cond) (mode : IndexMode) (up : Bool) (rd rn : Reg) (off : HalfOffset)
  | ldrd (c : Cond) (mode : IndexMode) (up : Bool) (rd rn : Reg) (off : HalfOffset)
  | strd (c : Cond) (mode : IndexMode) (up : Bool) (rd rn : Reg) (off : HalfOffset)
  | swp (c : Cond) (rd rm rn : Reg)
  | swpb (c : Cond) (rd rm rn : Reg)
  -- ARM set: multiple transfer (R117, R342, R343); `sb` is the S bit, `wb` the W bit
  | ldm (c : Cond) (mode : BlockMode) (sb wb : Bool) (rn : Reg) (list : BitVec 16)
  | stm (c : Cond) (mode : BlockMode) (sb wb : Bool) (rn : Reg) (list : BitVec 16)
  -- ARM set: status registers (R120, R121, R375 to R378)
  | mrs (c : Cond) (src : PsrSel) (rd : Reg)
  | msrCpsr (c : Cond) (fields : PsrFields) (src : MsrOperand)
  | msrSpsr (c : Cond) (fields : PsrFields) (src : MsrOperand)
  -- ARM set: branches and exceptions (R118, R119, R122 to R124, R390 to R410)
  | b (c : Cond) (imm24 : BitVec 24)
  | bl (c : Cond) (imm24 : BitVec 24)
  | bx (c : Cond) (rm : Reg)
  | blx (c : Cond) (rm : Reg)
  | swi (c : Cond) (imm24 : BitVec 24)
  | bkpt (c : Cond) (imm16 : BitVec 16)
  /-- every word of the undefined space (R104, R124, R312), with its bits 27:0 -/
  | undefined (c : Cond) (bits : BitVec 28)
  -- Thumb set: formats 1 to 3 (R126 to R128, R422 to R432)
  | tLslImm (rd rs : LowReg) (imm5 : BitVec 5)
  | tLsrImm (rd rs : LowReg) (imm5 : BitVec 5)
  | tAsrImm (rd rs : LowReg) (imm5 : BitVec 5)
  | tAddReg (rd rs rn : LowReg)
  | tSubReg (rd rs rn : LowReg)
  | tAddImm3 (rd rs : LowReg) (imm3 : BitVec 3)
  | tSubImm3 (rd rs : LowReg) (imm3 : BitVec 3)
  | tMovImm (rd : LowReg) (imm8 : BitVec 8)
  | tCmpImm (rd : LowReg) (imm8 : BitVec 8)
  | tAddImm8 (rd : LowReg) (imm8 : BitVec 8)
  | tSubImm8 (rd : LowReg) (imm8 : BitVec 8)
  -- Thumb set: format 4 (R129, R433 to R448)
  | tAnd (rd rs : LowReg)
  | tEor (rd rs : LowReg)
  | tLslReg (rd rs : LowReg)
  | tLsrReg (rd rs : LowReg)
  | tAsrReg (rd rs : LowReg)
  | tAdc (rd rs : LowReg)
  | tSbc (rd rs : LowReg)
  | tRorReg (rd rs : LowReg)
  | tTst (rd rs : LowReg)
  | tNeg (rd rs : LowReg)
  | tCmpReg (rd rs : LowReg)
  | tCmn (rd rs : LowReg)
  | tOrr (rd rs : LowReg)
  | tMul (rd rs : LowReg)
  | tBic (rd rs : LowReg)
  | tMvn (rd rs : LowReg)
  -- Thumb set: format 5 (R130, R452 to R456)
  | tAddHi (rd rs : Reg)
  | tCmpHi (rd rs : Reg)
  | tMovHi (rd rs : Reg)
  | tBx (rs : Reg)
  | tBlx (rs : Reg)
  -- Thumb set: formats 6 to 8 (R131 to R133, R458 to R467)
  | tLdrPc (rd : LowReg) (imm8 : BitVec 8)
  | tStrReg (rd rb ro : LowReg)
  | tStrbReg (rd rb ro : LowReg)
  | tLdrReg (rd rb ro : LowReg)
  | tLdrbReg (rd rb ro : LowReg)
  | tStrhReg (rd rb ro : LowReg)
  | tLdsbReg (rd rb ro : LowReg)
  | tLdrhReg (rd rb ro : LowReg)
  | tLdshReg (rd rb ro : LowReg)
  -- Thumb set: formats 9 to 13 (R134 to R138, R470 to R481)
  | tStrImm (rd rb : LowReg) (imm5 : BitVec 5)
  | tLdrImm (rd rb : LowReg) (imm5 : BitVec 5)
  | tStrbImm (rd rb : LowReg) (imm5 : BitVec 5)
  | tLdrbImm (rd rb : LowReg) (imm5 : BitVec 5)
  | tStrhImm (rd rb : LowReg) (imm5 : BitVec 5)
  | tLdrhImm (rd rb : LowReg) (imm5 : BitVec 5)
  | tStrSp (rd : LowReg) (imm8 : BitVec 8)
  | tLdrSp (rd : LowReg) (imm8 : BitVec 8)
  | tAddPc (rd : LowReg) (imm8 : BitVec 8)
  | tAddSp (rd : LowReg) (imm8 : BitVec 8)
  | tAddSpImm (imm7 : BitVec 7)
  | tSubSpImm (imm7 : BitVec 7)
  -- Thumb set: formats 14 and 15 (R139, R140, R485 to R491); `r` is the R bit
  | tPush (r : Bool) (list : BitVec 8)
  | tPop (r : Bool) (list : BitVec 8)
  | tStmia (rb : LowReg) (list : BitVec 8)
  | tLdmia (rb : LowReg) (list : BitVec 8)
  -- Thumb set: branches and exceptions (R141 to R146, R495 to R516)
  | tBCond (c : Cond) (soff8 : BitVec 8)
  | tSwi (imm8 : BitVec 8)
  | tB (off11 : BitVec 11)
  | tBkpt (imm8 : BitVec 8)
  | tBlHigh (off11 : BitVec 11)
  | tBlLow (off11 : BitVec 11)
  /-- every halfword of the undefined space (R104, R146) -/
  | tUndefined (half : Half)
deriving DecidableEq, Repr

end Sys2Proof
end

