-- ==== Sys2Proof/Machine/Bits.lean ====
section
/-! DEFINITION. The bit-field helpers of rule R6 and the register numbers of the two sets. -/

namespace Sys2Proof.Machine

/-- `ROR32(v, n)` (R6), for 0 <= n <= 31. -/
def ror32 (v : Word) (n : Nat) : Word :=
  if n = 0 then v else (v >>> n) ||| (v <<< (32 - n))

/-- `sext_N(v)` (R6) of a value of its own width. -/
def sext {n : Nat} (v : BitVec n) : Word := v.signExtend 32

/-- `zext_N(v)` (R6) of a value of its own width. -/
def zext {n : Nat} (v : BitVec n) : Word := v.setWidth 32

/-- `Align(v, 4)` (R6). -/
def align4 (v : Word) : Word := v &&& 0xFFFFFFFC#32

/-- `Align(v, 2)` (R6). -/
def align2 (v : Word) : Word := v &&& 0xFFFFFFFE#32

/-- The instruction width w of a T bit, in bytes (R32). -/
def widthOf (thumb : Bool) : Word := if thumb then 2 else 4

/-- `Align(v, w)` for the instruction width of a T bit (R74). -/
def alignWidth (thumb : Bool) (v : Word) : Word := if thumb then align2 v else align4 v

/-- `Half(v, sel)` (R251): the selected half, as a signed 16-bit value. -/
def halfOf (v : Word) : HalfSel → BitVec 16
  | .bottom => v.extractLsb' 0 16
  | .top => v.extractLsb' 16 16

/-- A Thumb register number as a register (R20). -/
def lowReg (r : LowReg) : Reg := ⟨r.val, by omega⟩

/-- r13, the stack pointer, r14, the link register, and r15, the program counter (R21). -/
def sp : Reg := 13

def lr : Reg := 14

def pc : Reg := 15

end Sys2Proof.Machine
end

