-- ==== Sys2Proof/Machine/Psr.lean ====
section
/-! DEFINITION. A status word (R27), its modes (R28) and banks (R23). A status word is held as its implemented
fields, since bits 26:8 read as 0 and ignore writes (R36; assumption log 20); `packPsr` gives the word that
software reads. -/

namespace Sys2Proof.Machine

/-- CPSR or an SPSR: bits 31:27 and 7:0 of the word (R27, R36). -/
structure Psr where
  /-- bit 31 -/
  n : Bool
  /-- bit 30 -/
  z : Bool
  /-- bit 29 -/
  c : Bool
  /-- bit 28 -/
  v : Bool
  /-- bit 27, sticky saturation (R31) -/
  q : Bool
  /-- bit 7, normal interrupts disabled -/
  i : Bool
  /-- bit 6, fast interrupts disabled -/
  f : Bool
  /-- bit 5, Thumb state (R32) -/
  t : Bool
  /-- bits 4:0, the mode field -/
  m : BitVec 5
deriving DecidableEq, Repr

/-- The word of a status register: reserved bits read as 0 (R36). -/
def packPsr (p : Psr) : Word :=
  BitVec.ofBool p.n ++ BitVec.ofBool p.z ++ BitVec.ofBool p.c ++ BitVec.ofBool p.v ++ BitVec.ofBool p.q ++
    0#19 ++ BitVec.ofBool p.i ++ BitVec.ofBool p.f ++ BitVec.ofBool p.t ++ p.m

/-- `w AND PSR_MASK` as a status register (R36). -/
def unpackPsr (w : Word) : Psr where
  n := w.getLsbD 31
  z := w.getLsbD 30
  c := w.getLsbD 29
  v := w.getLsbD 28
  q := w.getLsbD 27
  i := w.getLsbD 7
  f := w.getLsbD 6
  t := w.getLsbD 5
  m := w.extractLsb' 0 5

/-- `PSR_MASK` (R36). -/
def psrMask : Word := 0xF80000FF

/-! ## Modes and banks -/

/-- The mode values of R28. -/
def modeUsr : BitVec 5 := 0b10000
def modeFiq : BitVec 5 := 0b10001
def modeIrq : BitVec 5 := 0b10010
def modeSvc : BitVec 5 := 0b10011
def modeAbt : BitVec 5 := 0b10111
def modeUnd : BitVec 5 := 0b11011
def modeSys : BitVec 5 := 0b11111

/-- The six banks (R22, R23). -/
inductive Bank where
  | usr | fiq | irq | svc | abt | und
deriving DecidableEq, Repr

/-- `bank_of(M)` (R23); a value that is not a mode takes the user bank (R29). -/
def bankOf (m : BitVec 5) : Bank :=
  if m = modeFiq then .fiq
  else if m = modeIrq then .irq
  else if m = modeSvc then .svc
  else if m = modeAbt then .abt
  else if m = modeUnd then .und
  else .usr

/-- The value is one of the seven modes (R28). -/
def isMode (m : BitVec 5) : Bool :=
  m == modeUsr || m == modeFiq || m == modeIrq || m == modeSvc || m == modeAbt || m == modeUnd || m == modeSys

/-- Every mode but User is privileged (R28), and so is a value that is not a mode (R29). -/
def isPrivileged (m : BitVec 5) : Bool := m != modeUsr

/-- The bank that is the home of register n in mode m (R23): none for r0 to r7 and r15. -/
def homeOf (m : BitVec 5) (n : Reg) : Option Bank :=
  if n.val < 8 ∨ n.val = 15 then none
  else if n.val < 13 then (if bankOf m = .fiq then some .fiq else some .usr)
  else some (bankOf m)

/-! ## The condition test -/

/-- `CondPass(c)` (R180); 1111 never passes (R106). -/
def condPass (c : Cond) (p : Psr) : Bool :=
  match c with
  | .eq => p.z
  | .ne => !p.z
  | .cs => p.c
  | .cc => !p.c
  | .mi => p.n
  | .pl => !p.n
  | .vs => p.v
  | .vc => !p.v
  | .hi => p.c && !p.z
  | .ls => !p.c || p.z
  | .ge => p.n == p.v
  | .lt => p.n != p.v
  | .gt => !p.z && (p.n == p.v)
  | .le => p.z || (p.n != p.v)
  | .al => true
  | .nv => false

end Sys2Proof.Machine
end

