-- ==== Sys2Proof/Machine/Flags.lean ====
section
/-! DEFINITION. The adder (R208), the saturation (R360), and every flag computation: the logic rule (R209), the
arithmetic rule (R210), the multiply rule (R263), the sticky flag (R31). -/

namespace Sys2Proof.Machine

/-- What the adder answers: the result, the carry and the overflow. -/
structure Sum where
  result : Word
  carry : Bool
  overflow : Bool
deriving DecidableEq, Repr

/-- `AddWithCarry(x, y, cin)` (R208). -/
def addWithCarry (x y : Word) (cin : Bool) : Sum :=
  let u := x.toNat + y.toNat + cin.toNat
  let r := BitVec.ofNat 32 u
  { result := r, carry := decide (2 ^ 32 ≤ u), overflow := (~~~(x ^^^ y) &&& (x ^^^ r)).msb }

/-- N and Z of a 32-bit result, `SetNZ` (R421). -/
def Psr.setNZ (p : Psr) (r : Word) : Psr := { p with n := r.msb, z := r == 0 }

/-- The flags of a logic operation: N, Z, and C from the shifter; V unchanged (R209). -/
def Psr.setLogic (p : Psr) (r : Word) (sc : Bool) : Psr := { p.setNZ r with c := sc }

/-- The flags of an arithmetic operation: N, Z, C, V (R210). -/
def Psr.setArith (p : Psr) (a : Sum) : Psr := { p.setNZ a.result with c := a.carry, v := a.overflow }

/-- N and Z of a 64-bit result (R263). -/
def Psr.setNZ64 (p : Psr) (r : BitVec 64) : Psr := { p with n := r.msb, z := r == 0 }

/-- Sets Q when `sat`; never clears it (R31). -/
def Psr.orQ (p : Psr) (sat : Bool) : Psr := { p with q := p.q || sat }

/-- `SignedSat32(v)` (R360): the clamped word and whether it was clamped. -/
def signedSat32 (v : Int) : Word × Bool :=
  if v > 2 ^ 31 - 1 then (0x7FFFFFFF, true)
  else if v < -2 ^ 31 then (0x80000000, true)
  else (BitVec.ofInt 32 v, false)

/-- The value does not fit a signed 32-bit word: the overflow test of SMLAxy and SMLAWy (R258, R259). -/
def overflowsSigned32 (v : Int) : Bool := decide (v > 2 ^ 31 - 1) || decide (v < -2 ^ 31)

end Sys2Proof.Machine
end

