-- ==== Sys2Proof/WellFormed.lean ====
section
/-! DEFINITION. Which terms of `Instr` are instructions of the hardware: the constraints that the operand types do
not already carry. A doubleword transfer names an even register (R312); an undefined instruction's bits lie in
the undefined space (R104, R124, R146); the Thumb conditional branch has one of the fourteen conditions 0000 to
1101 (R141). Every other term is well formed. -/

namespace Sys2Proof

/-- The ARM undefined space, bits 27:0: the UNDEFINED rows of spec/opcode_table.json, as (mask, match)
(R104, R124, R312). -/
def undefinedArmRows : List (BitVec 28 × BitVec 28) :=
  [(0xE5010F0#28, 0x00010D0#28),
   (0xE5010F0#28, 0x00010F0#28),
   (0xFC000F0#28, 0x0400090#28),
   (0xE5010F0#28, 0x04010D0#28),
   (0xE5010F0#28, 0x04010F0#28),
   (0xFB000F0#28, 0x1000010#28),
   (0xF9000B0#28, 0x1000020#28),
   (0xFB000B0#28, 0x1000030#28),
   (0xF9000F0#28, 0x1000040#28),
   (0xF9000F0#28, 0x1100090#28),
   (0xFB000F0#28, 0x1200090#28),
   (0xFF000F0#28, 0x1600010#28),
   (0xFF000B0#28, 0x1600030#28),
   (0xF8000F0#28, 0x1800090#28),
   (0xFB00000#28, 0x3000000#28),
   (0xE000010#28, 0x6000010#28),
   (0xE000000#28, 0xC000000#28),
   (0xF000000#28, 0xE000000#28)]

/-- The Thumb undefined space: the UNDEFINED rows of spec/opcode_table.json, as (mask, match) (R104, R146). -/
def undefinedThumbRows : List (Half × Half) :=
  [(0xFF00#16, 0xB100#16),
   (0xFA00#16, 0xB200#16),
   (0xFC00#16, 0xB800#16),
   (0xFF00#16, 0xBF00#16),
   (0xFF00#16, 0xDE00#16),
   (0xF800#16, 0xE800#16)]

/-- Bits 27:0 select the undefined-instruction handler. -/
def undefinedArmBits (bits : BitVec 28) : Bool :=
  undefinedArmRows.any fun row => bits &&& row.1 == row.2

/-- The halfword selects the undefined-instruction handler. -/
def undefinedThumbHalf (half : Half) : Bool :=
  undefinedThumbRows.any fun row => half &&& row.1 == row.2

/-- The term is an instruction of the hardware. -/
def Instr.wellFormed : Instr → Bool
  | .and .. => true
  | .eor .. => true
  | .sub .. => true
  | .rsb .. => true
  | .add .. => true
  | .adc .. => true
  | .sbc .. => true
  | .rsc .. => true
  | .tst .. => true
  | .teq .. => true
  | .cmp .. => true
  | .cmn .. => true
  | .orr .. => true
  | .mov .. => true
  | .bic .. => true
  | .mvn .. => true
  | .mul .. => true
  | .mla .. => true
  | .umull .. => true
  | .umlal .. => true
  | .smull .. => true
  | .smlal .. => true
  | .smlaxy .. => true
  | .smlawy .. => true
  | .smulwy .. => true
  | .smlalxy .. => true
  | .smulxy .. => true
  | .qadd .. => true
  | .qsub .. => true
  | .qdadd .. => true
  | .qdsub .. => true
  | .ldr .. => true
  | .str .. => true
  | .ldrb .. => true
  | .strb .. => true
  | .ldrt .. => true
  | .strt .. => true
  | .ldrbt .. => true
  | .strbt .. => true
  | .ldrh .. => true
  | .strh .. => true
  | .ldrsb .. => true
  | .ldrsh .. => true
  | .ldrd _ _ _ rd _ _ => rd.val % 2 == 0
  | .strd _ _ _ rd _ _ => rd.val % 2 == 0
  | .swp .. => true
  | .swpb .. => true
  | .ldm .. => true
  | .stm .. => true
  | .mrs .. => true
  | .msrCpsr .. => true
  | .msrSpsr .. => true
  | .b .. => true
  | .bl .. => true
  | .bx .. => true
  | .blx .. => true
  | .swi .. => true
  | .bkpt .. => true
  | .undefined _ bits => undefinedArmBits bits
  | .tLslImm .. => true
  | .tLsrImm .. => true
  | .tAsrImm .. => true
  | .tAddReg .. => true
  | .tSubReg .. => true
  | .tAddImm3 .. => true
  | .tSubImm3 .. => true
  | .tMovImm .. => true
  | .tCmpImm .. => true
  | .tAddImm8 .. => true
  | .tSubImm8 .. => true
  | .tAnd .. => true
  | .tEor .. => true
  | .tLslReg .. => true
  | .tLsrReg .. => true
  | .tAsrReg .. => true
  | .tAdc .. => true
  | .tSbc .. => true
  | .tRorReg .. => true
  | .tTst .. => true
  | .tNeg .. => true
  | .tCmpReg .. => true
  | .tCmn .. => true
  | .tOrr .. => true
  | .tMul .. => true
  | .tBic .. => true
  | .tMvn .. => true
  | .tAddHi .. => true
  | .tCmpHi .. => true
  | .tMovHi .. => true
  | .tBx .. => true
  | .tBlx .. => true
  | .tLdrPc .. => true
  | .tStrReg .. => true
  | .tStrbReg .. => true
  | .tLdrReg .. => true
  | .tLdrbReg .. => true
  | .tStrhReg .. => true
  | .tLdsbReg .. => true
  | .tLdrhReg .. => true
  | .tLdshReg .. => true
  | .tStrImm .. => true
  | .tLdrImm .. => true
  | .tStrbImm .. => true
  | .tLdrbImm .. => true
  | .tStrhImm .. => true
  | .tLdrhImm .. => true
  | .tStrSp .. => true
  | .tLdrSp .. => true
  | .tAddPc .. => true
  | .tAddSp .. => true
  | .tAddSpImm .. => true
  | .tSubSpImm .. => true
  | .tPush .. => true
  | .tPop .. => true
  | .tStmia .. => true
  | .tLdmia .. => true
  | .tBCond c _ => c != .al && c != .nv
  | .tSwi .. => true
  | .tB .. => true
  | .tBkpt .. => true
  | .tBlHigh .. => true
  | .tBlLow .. => true
  | .tUndefined half => undefinedThumbHalf half

/-- The instruction belongs to the Thumb set: it is fetched as a halfword (R100). -/
def Instr.isThumb : Instr → Bool
  | .and .. => false
  | .eor .. => false
  | .sub .. => false
  | .rsb .. => false
  | .add .. => false
  | .adc .. => false
  | .sbc .. => false
  | .rsc .. => false
  | .tst .. => false
  | .teq .. => false
  | .cmp .. => false
  | .cmn .. => false
  | .orr .. => false
  | .mov .. => false
  | .bic .. => false
  | .mvn .. => false
  | .mul .. => false
  | .mla .. => false
  | .umull .. => false
  | .umlal .. => false
  | .smull .. => false
  | .smlal .. => false
  | .smlaxy .. => false
  | .smlawy .. => false
  | .smulwy .. => false
  | .smlalxy .. => false
  | .smulxy .. => false
  | .qadd .. => false
  | .qsub .. => false
  | .qdadd .. => false
  | .qdsub .. => false
  | .ldr .. => false
  | .str .. => false
  | .ldrb .. => false
  | .strb .. => false
  | .ldrt .. => false
  | .strt .. => false
  | .ldrbt .. => false
  | .strbt .. => false
  | .ldrh .. => false
  | .strh .. => false
  | .ldrsb .. => false
  | .ldrsh .. => false
  | .ldrd .. => false
  | .strd .. => false
  | .swp .. => false
  | .swpb .. => false
  | .ldm .. => false
  | .stm .. => false
  | .mrs .. => false
  | .msrCpsr .. => false
  | .msrSpsr .. => false
  | .b .. => false
  | .bl .. => false
  | .bx .. => false
  | .blx .. => false
  | .swi .. => false
  | .bkpt .. => false
  | .undefined .. => false
  | .tLslImm .. => true
  | .tLsrImm .. => true
  | .tAsrImm .. => true
  | .tAddReg .. => true
  | .tSubReg .. => true
  | .tAddImm3 .. => true
  | .tSubImm3 .. => true
  | .tMovImm .. => true
  | .tCmpImm .. => true
  | .tAddImm8 .. => true
  | .tSubImm8 .. => true
  | .tAnd .. => true
  | .tEor .. => true
  | .tLslReg .. => true
  | .tLsrReg .. => true
  | .tAsrReg .. => true
  | .tAdc .. => true
  | .tSbc .. => true
  | .tRorReg .. => true
  | .tTst .. => true
  | .tNeg .. => true
  | .tCmpReg .. => true
  | .tCmn .. => true
  | .tOrr .. => true
  | .tMul .. => true
  | .tBic .. => true
  | .tMvn .. => true
  | .tAddHi .. => true
  | .tCmpHi .. => true
  | .tMovHi .. => true
  | .tBx .. => true
  | .tBlx .. => true
  | .tLdrPc .. => true
  | .tStrReg .. => true
  | .tStrbReg .. => true
  | .tLdrReg .. => true
  | .tLdrbReg .. => true
  | .tStrhReg .. => true
  | .tLdsbReg .. => true
  | .tLdrhReg .. => true
  | .tLdshReg .. => true
  | .tStrImm .. => true
  | .tLdrImm .. => true
  | .tStrbImm .. => true
  | .tLdrbImm .. => true
  | .tStrhImm .. => true
  | .tLdrhImm .. => true
  | .tStrSp .. => true
  | .tLdrSp .. => true
  | .tAddPc .. => true
  | .tAddSp .. => true
  | .tAddSpImm .. => true
  | .tSubSpImm .. => true
  | .tPush .. => true
  | .tPop .. => true
  | .tStmia .. => true
  | .tLdmia .. => true
  | .tBCond .. => true
  | .tSwi .. => true
  | .tB .. => true
  | .tBkpt .. => true
  | .tBlHigh .. => true
  | .tBlLow .. => true
  | .tUndefined .. => true

end Sys2Proof
end

