-- ==== Sys2Proof/Decode.lean ====
section
/-! DEFINITION. Decode and encode (30_encoding.md). An ARM word is cut into the fields around its 12-bit decode
key (R101: bits 27:20 and 7:4), a Thumb halfword into the pieces its formats share (R102); the decoder
classifies by the key alone, after the maps of R107 and R125 with their overrides resolved, and reads the
other fields of the format it finds. Every word decodes to an instruction: a key that no line of a map names is
the undefined instruction (R104). The encoder writes the same fields back; bits that the decoder ignores (R105)
it writes as the architecture's should-be values (assumption log 11). -/

namespace Sys2Proof

/-! ## The small fields -/

/-- R180: the condition a four-bit field selects. -/
def Cond.ofBits (v : BitVec 4) : Cond :=
  match v.toNat with
  | 0 => .eq | 1 => .ne | 2 => .cs | 3 => .cc | 4 => .mi | 5 => .pl | 6 => .vs | 7 => .vc
  | 8 => .hi | 9 => .ls | 10 => .ge | 11 => .lt | 12 => .gt | 13 => .le | 14 => .al | _ => .nv

/-- R180: the four bits of a condition. -/
def Cond.bits : Cond → BitVec 4
  | .eq => 0 | .ne => 1 | .cs => 2 | .cc => 3 | .mi => 4 | .pl => 5 | .vs => 6 | .vc => 7
  | .hi => 8 | .ls => 9 | .ge => 10 | .lt => 11 | .gt => 12 | .le => 13 | .al => 14 | .nv => 15

/-- R109: 00 LSL, 01 LSR, 10 ASR, 11 ROR. -/
def ShiftType.ofBits (hi lo : Bool) : ShiftType :=
  match hi, lo with
  | false, false => .lsl
  | false, true => .lsr
  | true, false => .asr
  | true, true => .ror

def ShiftType.hiBit : ShiftType → Bool
  | .lsl => false | .lsr => false | .asr => true | .ror => true

def ShiftType.loBit : ShiftType → Bool
  | .lsl => false | .lsr => true | .asr => false | .ror => true

/-- R117: the bits P and U select the addressing variant. -/
def BlockMode.ofBits (p u : Bool) : BlockMode :=
  match p, u with
  | false, true => .ia
  | true, true => .ib
  | false, false => .da
  | true, false => .db

def BlockMode.pBit : BlockMode → Bool
  | .ia => false | .ib => true | .da => false | .db => true

def BlockMode.uBit : BlockMode → Bool
  | .ia => true | .ib => true | .da => false | .db => false

/-- R115, R116, R283: the bits P and W; with P = 0 the W bit does not change the indexing. -/
def IndexMode.ofBits (p w : Bool) : IndexMode :=
  match p, w with
  | true, false => .offset
  | true, true => .preIndexed
  | false, _ => .postIndexed

def IndexMode.pBit : IndexMode → Bool
  | .offset => true | .preIndexed => true | .postIndexed => false

def IndexMode.wBit : IndexMode → Bool
  | .offset => false | .preIndexed => true | .postIndexed => false

def HalfSel.ofBit (b : Bool) : HalfSel := if b then .top else .bottom

def HalfSel.bit : HalfSel → Bool
  | .bottom => false | .top => true

/-- A bit vector from its bits, the most significant first. -/
def bits3 (b2 b1 b0 : Bool) : BitVec 3 := BitVec.ofBool b2 ++ BitVec.ofBool b1 ++ BitVec.ofBool b0

def bits4 (b3 b2 b1 b0 : Bool) : BitVec 4 := BitVec.ofBool b3 ++ bits3 b2 b1 b0

def bits8 (b7 b6 b5 b4 b3 b2 b1 b0 : Bool) : BitVec 8 := bits4 b7 b6 b5 b4 ++ bits4 b3 b2 b1 b0

def Reg.ofBits (v : BitVec 4) : Reg := v.toFin

def Reg.bits (r : Reg) : BitVec 4 := BitVec.ofFin (w := 4) r

def LowReg.ofBits (v : BitVec 3) : LowReg := v.toFin

def LowReg.bits (r : LowReg) : BitVec 3 := BitVec.ofFin (w := 3) r

/-! ## The ARM set -/

/-- The fields of an ARM word that all its formats are made of. `op` and `sh` together are the decode key
(R101). -/
structure ArmFields where
  /-- bits 31:28 -/
  cond : BitVec 4
  /-- bits 27:20 -/
  op : BitVec 8
  /-- bits 19:16 -/
  rn : BitVec 4
  /-- bits 15:12 -/
  rd : BitVec 4
  /-- bits 11:8 -/
  rs : BitVec 4
  /-- bits 7:4 -/
  sh : BitVec 4
  /-- bits 3:0 -/
  rm : BitVec 4
deriving DecidableEq, Repr

/-- Cuts a word into its fields. -/
def splitArm (w : Word) : ArmFields where
  cond := w.extractLsb' 28 4
  op := w.extractLsb' 20 8
  rn := w.extractLsb' 16 4
  rd := w.extractLsb' 12 4
  rs := w.extractLsb' 8 4
  sh := w.extractLsb' 4 4
  rm := w.extractLsb' 0 4

/-- Bits 27:0 of the word with these fields. -/
def ArmFields.low28 (f : ArmFields) : BitVec 28 := f.op ++ f.rn ++ f.rd ++ f.rs ++ f.sh ++ f.rm

/-- The word with these fields. -/
def joinArm (f : ArmFields) : Word := f.cond ++ f.low28

/-- Bits 11:0, an `imm12`. -/
def ArmFields.imm12 (f : ArmFields) : BitVec 12 := f.rs ++ f.sh ++ f.rm

/-- Bits 7:0, an `imm8`. -/
def ArmFields.imm8 (f : ArmFields) : BitVec 8 := f.sh ++ f.rm

/-- Bits 11:8 and 3:0, the split immediate of R115. -/
def ArmFields.splitImm8 (f : ArmFields) : BitVec 8 := f.rs ++ f.rm

/-- Bits 11:7, a shift amount. -/
def ArmFields.imm5 (f : ArmFields) : BitVec 5 := f.rs ++ BitVec.ofBool (f.sh.getLsbD 3)

/-- Bits 6:5, a shift type. -/
def ArmFields.shiftType (f : ArmFields) : ShiftType := ShiftType.ofBits (f.sh.getLsbD 2) (f.sh.getLsbD 1)

/-- Bits 15:0, a register list. -/
def ArmFields.list (f : ArmFields) : BitVec 16 := f.rd ++ f.rs ++ f.sh ++ f.rm

/-- Bits 23:0, a branch offset or a comment. -/
def ArmFields.imm24 (f : ArmFields) : BitVec 24 := f.op.extractLsb' 0 4 ++ f.rn ++ f.rd ++ f.rs ++ f.sh ++ f.rm

/-- Bits 19:8 and 3:0, the comment of BKPT (R123). -/
def ArmFields.comment16 (f : ArmFields) : BitVec 16 := f.rn ++ f.rd ++ f.rs ++ f.rm

/-- Bits 19:16 as the field mask of MSR (R121). -/
def ArmFields.psrFields (f : ArmFields) : PsrFields where
  f := f.rn.getLsbD 3
  s := f.rn.getLsbD 2
  x := f.rn.getLsbD 1
  c := f.rn.getLsbD 0

def ArmFields.undefined (f : ArmFields) : Instr := .undefined (Cond.ofBits f.cond) f.low28

/-- The data-processing instruction of an opcode field (R108). TST, TEQ, CMP and CMN have no S operand, MOV
and MVN no first operand. -/
def dataProcessingOf (opcode : BitVec 4) (c : Cond) (sb : Bool) (rd rn : Reg) (op2 : Operand2) : Instr :=
  match opcode.toNat with
  | 0 => .and c sb rd rn op2 | 1 => .eor c sb rd rn op2 | 2 => .sub c sb rd rn op2 | 3 => .rsb c sb rd rn op2
  | 4 => .add c sb rd rn op2 | 5 => .adc c sb rd rn op2 | 6 => .sbc c sb rd rn op2 | 7 => .rsc c sb rd rn op2
  | 8 => .tst c rn op2 | 9 => .teq c rn op2 | 10 => .cmp c rn op2 | 11 => .cmn c rn op2
  | 12 => .orr c sb rd rn op2 | 13 => .mov c sb rd op2 | 14 => .bic c sb rd rn op2 | _ => .mvn c sb rd op2

/-- A data-processing word with its operand 2 (R107 lines 2 to 4, R108). -/
def ArmFields.dataProcessing (f : ArmFields) (op2 : Operand2) : Instr :=
  dataProcessingOf (f.op.extractLsb' 1 4) (Cond.ofBits f.cond) (f.op.getLsbD 0) (Reg.ofBits f.rd)
    (Reg.ofBits f.rn) op2

/-- The opcodes 10xx with S = 0 (bits 24:23 = 10 and bit 20 = 0), whose words belong to the miscellaneous
instructions (R107 lines 5 and 6). -/
def ArmFields.isMisc (f : ArmFields) : Bool := f.op.getLsbD 4 && !f.op.getLsbD 3 && !f.op.getLsbD 0

/-- The key nibble 1001: multiplies and swaps (R107 lines 19 to 22). -/
def ArmFields.multiplyOrSwap (f : ArmFields) : Instr :=
  let c := Cond.ofBits f.cond
  let sb := f.op.getLsbD 0
  let hi := Reg.ofBits f.rn
  let lo := Reg.ofBits f.rd
  let rs := Reg.ofBits f.rs
  let rm := Reg.ofBits f.rm
  match f.op.getLsbD 4, f.op.getLsbD 3, f.op.getLsbD 2, f.op.getLsbD 1 with
  | false, false, false, false => .mul c sb hi rm rs
  | false, false, false, true => .mla c sb hi rm rs lo
  | false, true, false, false => .umull c sb lo hi rm rs
  | false, true, false, true => .umlal c sb lo hi rm rs
  | false, true, true, false => .smull c sb lo hi rm rs
  | false, true, true, true => .smlal c sb lo hi rm rs
  | true, false, false, false => if sb then f.undefined else .swp c lo rm hi
  | true, false, true, false => if sb then f.undefined else .swpb c lo rm hi
  | _, _, _, _ => f.undefined

/-- The key nibbles 1011, 1101, 1111: halfword, signed and doubleword transfers (R107 lines 23 to 28, R115),
with the odd-register test of R312. -/
def ArmFields.halfTransfer (f : ArmFields) : Instr :=
  let c := Cond.ofBits f.cond
  let mode := IndexMode.ofBits (f.op.getLsbD 4) (f.op.getLsbD 1)
  let up := f.op.getLsbD 3
  let rd := Reg.ofBits f.rd
  let rn := Reg.ofBits f.rn
  let off := if f.op.getLsbD 2 then HalfOffset.imm f.splitImm8 else HalfOffset.reg (Reg.ofBits f.rm)
  match f.op.getLsbD 0, f.sh.getLsbD 2, f.sh.getLsbD 1 with
  | false, true, false => if f.rd.getLsbD 0 then f.undefined else .ldrd c mode up rd rn off
  | false, true, true => if f.rd.getLsbD 0 then f.undefined else .strd c mode up rd rn off
  | false, false, _ => .strh c mode up rd rn off
  | true, false, _ => .ldrh c mode up rd rn off
  | true, true, false => .ldrsb c mode up rd rn off
  | true, true, true => .ldrsh c mode up rd rn off

/-- The miscellaneous instructions, register forms (R107 lines 5 and 8 to 18). The nibble `1xx1` is not
among them. -/
def ArmFields.misc (f : ArmFields) : Instr :=
  let c := Cond.ofBits f.cond
  let hi := Reg.ofBits f.rn
  let lo := Reg.ofBits f.rd
  let rs := Reg.ofBits f.rs
  let rm := Reg.ofBits f.rm
  let x := HalfSel.ofBit (f.sh.getLsbD 1)
  let y := HalfSel.ofBit (f.sh.getLsbD 2)
  let r := f.op.getLsbD 2
  let b21 := f.op.getLsbD 1
  match f.sh.getLsbD 3, f.sh.getLsbD 2, f.sh.getLsbD 1, f.sh.getLsbD 0 with
  | false, false, false, false =>
    match b21, r with
    | false, false => .mrs c .cpsr lo
    | false, true => .mrs c .spsr lo
    | true, false => .msrCpsr c f.psrFields (.reg rm)
    | true, true => .msrSpsr c f.psrFields (.reg rm)
  | false, false, false, true => if !r && b21 then .bx c rm else f.undefined
  | false, false, true, true => if !r && b21 then .blx c rm else f.undefined
  | false, true, false, true =>
    match r, b21 with
    | false, false => .qadd c lo rm hi
    | false, true => .qsub c lo rm hi
    | true, false => .qdadd c lo rm hi
    | true, true => .qdsub c lo rm hi
  | false, true, true, true => if !r && b21 then .bkpt c f.comment16 else f.undefined
  | true, _, b5, false =>
    match r, b21 with
    | false, false => .smlaxy c x y hi rm rs lo
    | false, true => if b5 then .smulwy c y hi rm rs else .smlawy c y hi rm rs lo
    | true, false => .smlalxy c x y lo hi rm rs
    | true, true => .smulxy c x y hi rm rs
  | _, _, _, _ => f.undefined

/-- The miscellaneous space of the immediate forms: MSR immediate, the rest undefined (R107 lines 6 and 7). -/
def ArmFields.miscImm (f : ArmFields) : Instr :=
  if f.op.getLsbD 1 then
    let src := MsrOperand.imm f.rs f.imm8
    if f.op.getLsbD 2 then .msrSpsr (Cond.ofBits f.cond) f.psrFields src
    else .msrCpsr (Cond.ofBits f.cond) f.psrFields src
  else f.undefined

/-- LDR, STR, LDRB, STRB and their T forms, P = 0 with W = 1 (R107 lines 29 and 30, R116). -/
def ArmFields.singleTransfer (f : ArmFields) (off : Offset) : Instr :=
  let c := Cond.ofBits f.cond
  let p := f.op.getLsbD 4
  let w := f.op.getLsbD 1
  let mode := IndexMode.ofBits p w
  let up := f.op.getLsbD 3
  let rd := Reg.ofBits f.rd
  let rn := Reg.ofBits f.rn
  match !p && w, f.op.getLsbD 2, f.op.getLsbD 0 with
  | false, false, false => .str c mode up rd rn off
  | false, false, true => .ldr c mode up rd rn off
  | false, true, false => .strb c mode up rd rn off
  | false, true, true => .ldrb c mode up rd rn off
  | true, false, false => .strt c up rd rn off
  | true, false, true => .ldrt c up rd rn off
  | true, true, false => .strbt c up rd rn off
  | true, true, true => .ldrbt c up rd rn off

/-- The ARM decoder on the fields of a word: the map of R107. -/
def decodeArmFields (f : ArmFields) : Instr :=
  let c := Cond.ofBits f.cond
  match f.op.getLsbD 7, f.op.getLsbD 6, f.op.getLsbD 5 with
  | false, false, false =>
    match f.sh.getLsbD 3 && f.sh.getLsbD 0 with
    | true => if f.sh.getLsbD 2 || f.sh.getLsbD 1 then f.halfTransfer else f.multiplyOrSwap
    | false =>
      if f.isMisc then f.misc
      else if f.sh.getLsbD 0 then
        f.dataProcessing (.shiftReg f.shiftType (Reg.ofBits f.rs) (Reg.ofBits f.rm))
      else f.dataProcessing (.shiftImm f.shiftType f.imm5 (Reg.ofBits f.rm))
  | false, false, true => if f.isMisc then f.miscImm else f.dataProcessing (.imm f.rs f.imm8)
  | false, true, false => f.singleTransfer (.imm f.imm12)
  | false, true, true =>
    if f.sh.getLsbD 0 then f.undefined
    else f.singleTransfer (.shifted f.shiftType f.imm5 (Reg.ofBits f.rm))
  | true, false, false =>
    let mode := BlockMode.ofBits (f.op.getLsbD 4) (f.op.getLsbD 3)
    if f.op.getLsbD 0 then .ldm c mode (f.op.getLsbD 2) (f.op.getLsbD 1) (Reg.ofBits f.rn) f.list
    else .stm c mode (f.op.getLsbD 2) (f.op.getLsbD 1) (Reg.ofBits f.rn) f.list
  | true, false, true => if f.op.getLsbD 4 then .bl c f.imm24 else .b c f.imm24
  | true, true, false => f.undefined
  | true, true, true => if f.op.getLsbD 4 then .swi c f.imm24 else f.undefined

/-- The ARM decoder: every word is an instruction (R104). -/
def decodeArm (w : Word) : Instr := decodeArmFields (splitArm w)

/-! ## The Thumb set -/

/-- The pieces the Thumb formats are made of. -/
structure ThumbFields where
  /-- bits 15:11 -/
  top : BitVec 5
  /-- bits 10:8 -/
  mid : BitVec 3
  /-- bits 7:6 -/
  low : BitVec 2
  /-- bits 5:3 -/
  rs : BitVec 3
  /-- bits 2:0 -/
  rd : BitVec 3
deriving DecidableEq, Repr

def splitThumb (h : Half) : ThumbFields where
  top := h.extractLsb' 11 5
  mid := h.extractLsb' 8 3
  low := h.extractLsb' 6 2
  rs := h.extractLsb' 3 3
  rd := h.extractLsb' 0 3

def joinThumb (f : ThumbFields) : Half := f.top ++ f.mid ++ f.low ++ f.rs ++ f.rd

/-- Bits 10:6. -/
def ThumbFields.imm5 (f : ThumbFields) : BitVec 5 := f.mid ++ f.low

/-- Bits 8:6, a third register or a 3-bit immediate. -/
def ThumbFields.imm3 (f : ThumbFields) : BitVec 3 := BitVec.ofBool (f.mid.getLsbD 0) ++ f.low

/-- Bits 7:0. -/
def ThumbFields.imm8 (f : ThumbFields) : BitVec 8 := f.low ++ f.rs ++ f.rd

/-- Bits 6:0. -/
def ThumbFields.imm7 (f : ThumbFields) : BitVec 7 := BitVec.ofBool (f.low.getLsbD 0) ++ f.rs ++ f.rd

/-- Bits 10:0. -/
def ThumbFields.off11 (f : ThumbFields) : BitVec 11 := f.mid ++ f.low ++ f.rs ++ f.rd

/-- `Rd = H1 : H[2:0]` of format 5 (R130). -/
def ThumbFields.hiRd (f : ThumbFields) : Reg := Reg.ofBits (BitVec.ofBool (f.low.getLsbD 1) ++ f.rd)

/-- `Rs = H2 : H[5:3]` of format 5 (R130). -/
def ThumbFields.hiRs (f : ThumbFields) : Reg := Reg.ofBits (BitVec.ofBool (f.low.getLsbD 0) ++ f.rs)

def ThumbFields.undefined (f : ThumbFields) : Instr := .tUndefined (joinThumb f)

/-- Format 4: the sixteen ALU operations of bits 9:6 (R129). -/
def ThumbFields.alu (f : ThumbFields) : Instr :=
  let rd := LowReg.ofBits f.rd
  let rs := LowReg.ofBits f.rs
  match (f.mid.extractLsb' 0 2 ++ f.low).toNat with
  | 0 => .tAnd rd rs | 1 => .tEor rd rs | 2 => .tLslReg rd rs | 3 => .tLsrReg rd rs
  | 4 => .tAsrReg rd rs | 5 => .tAdc rd rs | 6 => .tSbc rd rs | 7 => .tRorReg rd rs
  | 8 => .tTst rd rs | 9 => .tNeg rd rs | 10 => .tCmpReg rd rs | 11 => .tCmn rd rs
  | 12 => .tOrr rd rs | 13 => .tMul rd rs | 14 => .tBic rd rs | _ => .tMvn rd rs

/-- Format 5: hi-register operations and branch exchange, selected by bits 9:8 and H1 (R130). -/
def ThumbFields.hiOps (f : ThumbFields) : Instr :=
  match f.mid.getLsbD 1, f.mid.getLsbD 0 with
  | false, false => .tAddHi f.hiRd f.hiRs
  | false, true => .tCmpHi f.hiRd f.hiRs
  | true, false => .tMovHi f.hiRd f.hiRs
  | true, true => if f.low.getLsbD 1 then .tBlx f.hiRs else .tBx f.hiRs

/-- Formats 7 and 8: register offset, selected by bits 11:9 (R132, R133). -/
def ThumbFields.registerOffset (f : ThumbFields) : Instr :=
  let rd := LowReg.ofBits f.rd
  let rb := LowReg.ofBits f.rs
  let ro := LowReg.ofBits f.imm3
  match f.top.getLsbD 0, f.mid.getLsbD 2, f.mid.getLsbD 1 with
  | false, false, false => .tStrReg rd rb ro
  | false, true, false => .tStrbReg rd rb ro
  | true, false, false => .tLdrReg rd rb ro
  | true, true, false => .tLdrbReg rd rb ro
  | false, false, true => .tStrhReg rd rb ro
  | false, true, true => .tLdsbReg rd rb ro
  | true, false, true => .tLdrhReg rd rb ro
  | true, true, true => .tLdshReg rd rb ro

/-- The pattern 10110: format 13, PUSH, the rest undefined (R138, R139, R146). -/
def ThumbFields.stackLow (f : ThumbFields) : Instr :=
  match f.mid.toNat with
  | 0 => if f.low.getLsbD 1 then .tSubSpImm f.imm7 else .tAddSpImm f.imm7
  | 4 => .tPush false f.imm8
  | 5 => .tPush true f.imm8
  | _ => f.undefined

/-- The pattern 10111: POP, BKPT, the rest undefined (R139, R145, R146). -/
def ThumbFields.stackHigh (f : ThumbFields) : Instr :=
  match f.mid.toNat with
  | 4 => .tPop false f.imm8
  | 5 => .tPop true f.imm8
  | 6 => .tBkpt f.imm8
  | _ => f.undefined

/-- The pattern 1101: the conditional branch, with 1110 undefined and 1111 SWI (R141, R142, R146). -/
def ThumbFields.condBranch (f : ThumbFields) : Instr :=
  match BitVec.ofBool (f.top.getLsbD 0) ++ f.mid with
  | c => match c.toNat with
    | 14 => f.undefined
    | 15 => .tSwi f.imm8
    | _ => .tBCond (Cond.ofBits c) f.imm8

/-- The Thumb decoder on the fields of a halfword: the map of R125, by bits 15:11. -/
def decodeThumbFields (f : ThumbFields) : Instr :=
  let rd := LowReg.ofBits f.rd
  let rs := LowReg.ofBits f.rs
  let rm := LowReg.ofBits f.mid
  match f.top.toNat with
  | 0 => .tLslImm rd rs f.imm5
  | 1 => .tLsrImm rd rs f.imm5
  | 2 => .tAsrImm rd rs f.imm5
  | 3 =>
    match f.mid.getLsbD 2, f.mid.getLsbD 1 with
    | false, false => .tAddReg rd rs (LowReg.ofBits f.imm3)
    | false, true => .tSubReg rd rs (LowReg.ofBits f.imm3)
    | true, false => .tAddImm3 rd rs f.imm3
    | true, true => .tSubImm3 rd rs f.imm3
  | 4 => .tMovImm rm f.imm8
  | 5 => .tCmpImm rm f.imm8
  | 6 => .tAddImm8 rm f.imm8
  | 7 => .tSubImm8 rm f.imm8
  | 8 => if f.mid.getLsbD 2 then f.hiOps else f.alu
  | 9 => .tLdrPc rm f.imm8
  | 10 => f.registerOffset
  | 11 => f.registerOffset
  | 12 => .tStrImm rd rs f.imm5
  | 13 => .tLdrImm rd rs f.imm5
  | 14 => .tStrbImm rd rs f.imm5
  | 15 => .tLdrbImm rd rs f.imm5
  | 16 => .tStrhImm rd rs f.imm5
  | 17 => .tLdrhImm rd rs f.imm5
  | 18 => .tStrSp rm f.imm8
  | 19 => .tLdrSp rm f.imm8
  | 20 => .tAddPc rm f.imm8
  | 21 => .tAddSp rm f.imm8
  | 22 => f.stackLow
  | 23 => f.stackHigh
  | 24 => .tStmia rm f.imm8
  | 25 => .tLdmia rm f.imm8
  | 26 => f.condBranch
  | 27 => f.condBranch
  | 28 => .tB f.off11
  | 29 => f.undefined
  | 30 => .tBlHigh f.off11
  | _ => .tBlLow f.off11

/-- The Thumb decoder: every halfword is an instruction (R104). -/
def decodeThumb (h : Half) : Instr := decodeThumbFields (splitThumb h)

/-! ## From a fetched slot, and from bytes -/

/-- The instruction in a pipeline slot: the T bit selects the decoder (R100); in Thumb state a slot holds its
halfword zero-extended (R37). -/
def decodeFetched (thumb : Bool) (slot : Word) : Instr :=
  if thumb then decodeThumb (slot.setWidth 16) else decodeArm slot

/-- Why a byte string is refused: every complete word is an instruction (R104), so only its end is. -/
inductive DecodeError where
  /-- fewer bytes than the instruction width -/
  | truncated
deriving DecidableEq, Repr

/-- The first instruction of a byte string and the rest of it, little-endian (R64, R100). -/
def decodeBytes : Bool → List Byte → Except DecodeError (Instr × List Byte)
  | false, b0 :: b1 :: b2 :: b3 :: rest => .ok (decodeArm (b3 ++ b2 ++ b1 ++ b0), rest)
  | true, b0 :: b1 :: rest => .ok (decodeThumb (b1 ++ b0), rest)
  | _, _ => .error .truncated

/-- The low `n` bytes of a number, the first at the lowest address (R64). -/
def bytesOf : Nat → Nat → List Byte
  | 0, _ => []
  | n + 1, w => BitVec.ofNat 8 w :: bytesOf n (w / 256)

/-- The instruction the decoder reads from a table row's word: 32-bit rows are ARM words, 16-bit rows Thumb
halfwords. -/
def decodeTableWord (nbits w : Nat) : Option Instr :=
  let bytes := bytesOf (nbits / 8) w
  let answer := if nbits = 32 then decodeBytes false bytes else if nbits = 16 then decodeBytes true bytes
    else .error .truncated
  match answer with
  | .ok (i, _) => some i
  | .error _ => none

/-! ## Encode -/

/-- The three operand-2 forms: the I bit, and the fields rs, sh, rm (R109). -/
def Operand2.encode : Operand2 → Bool × BitVec 4 × BitVec 4 × BitVec 4
  | .imm rot imm8 => (true, rot, imm8.extractLsb' 4 4, imm8.extractLsb' 0 4)
  | .shiftImm t imm5 rm =>
    (false, imm5.extractLsb' 1 4, bits4 (imm5.getLsbD 0) t.hiBit t.loBit false, Reg.bits rm)
  | .shiftReg t rs rm => (false, Reg.bits rs, bits4 false t.hiBit t.loBit true, Reg.bits rm)

/-- The offset forms of a single transfer: the I bit, and the fields rs, sh, rm (R116). -/
def Offset.encode : Offset → Bool × BitVec 4 × BitVec 4 × BitVec 4
  | .imm i => (false, i.extractLsb' 8 4, i.extractLsb' 4 4, i.extractLsb' 0 4)
  | .shifted t imm5 rm =>
    (true, imm5.extractLsb' 1 4, bits4 (imm5.getLsbD 0) t.hiBit t.loBit false, Reg.bits rm)

/-- The offset forms of a halfword transfer: the I bit, and the fields rs and rm (R115). -/
def HalfOffset.encode : HalfOffset → Bool × BitVec 4 × BitVec 4
  | .imm i => (true, i.extractLsb' 4 4, i.extractLsb' 0 4)
  | .reg rm => (false, 0, Reg.bits rm)

def encodeDp (c : Cond) (o3 o2 o1 o0 sb : Bool) (rd rn : BitVec 4) (op2 : Operand2) : ArmFields :=
  let e := op2.encode
  { cond := c.bits, op := bits8 false false e.1 o3 o2 o1 o0 sb, rn := rn, rd := rd,
    rs := e.2.1, sh := e.2.2.1, rm := e.2.2.2 }

def encodeMul (c : Cond) (b23 b22 b21 sb : Bool) (hi lo : BitVec 4) (rs rm : Reg) : ArmFields :=
  { cond := c.bits, op := bits8 false false false false b23 b22 b21 sb, rn := hi, rd := lo,
    rs := Reg.bits rs, sh := bits4 true false false true, rm := Reg.bits rm }

def encodeMisc (c : Cond) (b22 b21 : Bool) (rn rd rs sh rm : BitVec 4) : ArmFields :=
  { cond := c.bits, op := bits8 false false false true false b22 b21 false, rn := rn, rd := rd,
    rs := rs, sh := sh, rm := rm }

def encodeSingle (c : Cond) (p up byte w load : Bool) (rd rn : Reg) (off : Offset) : ArmFields :=
  let e := off.encode
  { cond := c.bits, op := bits8 false true e.1 p up byte w load, rn := Reg.bits rn, rd := Reg.bits rd,
    rs := e.2.1, sh := e.2.2.1, rm := e.2.2.2 }

def encodeHalf (c : Cond) (mode : IndexMode) (up load s h : Bool) (rd rn : Reg) (off : HalfOffset) : ArmFields :=
  let e := off.encode
  { cond := c.bits, op := bits8 false false false mode.pBit up e.1 mode.wBit load, rn := Reg.bits rn,
    rd := Reg.bits rd, rs := e.2.1, sh := bits4 true s h true, rm := e.2.2 }

def encodeBlock (c : Cond) (mode : BlockMode) (sb wb load : Bool) (rn : Reg) (l : BitVec 16) : ArmFields :=
  { cond := c.bits, op := bits8 true false false mode.pBit mode.uBit sb wb load, rn := Reg.bits rn,
    rd := l.extractLsb' 12 4, rs := l.extractLsb' 8 4, sh := l.extractLsb' 4 4, rm := l.extractLsb' 0 4 }

/-- A word with a 24-bit field below its bits 27:24 (R118, R122). -/
def encodeImm24 (c : Cond) (b27 b26 b25 b24 : Bool) (i : BitVec 24) : ArmFields :=
  { cond := c.bits, op := bits4 b27 b26 b25 b24 ++ i.extractLsb' 20 4, rn := i.extractLsb' 16 4,
    rd := i.extractLsb' 12 4, rs := i.extractLsb' 8 4, sh := i.extractLsb' 4 4, rm := i.extractLsb' 0 4 }

/-- A word by its condition and its bits 27:0. -/
def encodeLow28 (c : Cond) (u : BitVec 28) : ArmFields :=
  { cond := c.bits, op := u.extractLsb' 20 8, rn := u.extractLsb' 16 4, rd := u.extractLsb' 12 4,
    rs := u.extractLsb' 8 4, sh := u.extractLsb' 4 4, rm := u.extractLsb' 0 4 }

/-- MSR: the R bit, the field mask and the operand (R121). -/
def encodeMsr (c : Cond) (r : Bool) (m : PsrFields) (src : MsrOperand) : ArmFields :=
  let mask := bits4 m.f m.s m.x m.c
  match src with
  | .reg rm => encodeMisc c r true mask 15 0 0 (Reg.bits rm)
  | .imm rot imm8 =>
    { cond := c.bits, op := bits8 false false true true false r true false, rn := mask, rd := 15,
      rs := rot, sh := imm8.extractLsb' 4 4, rm := imm8.extractLsb' 0 4 }

def encodeThumb11 (top : BitVec 5) (o : BitVec 11) : ThumbFields :=
  { top := top, mid := o.extractLsb' 8 3, low := o.extractLsb' 6 2, rs := o.extractLsb' 3 3,
    rd := o.extractLsb' 0 3 }

def encodeThumb8 (top : BitVec 5) (mid : BitVec 3) (i : BitVec 8) : ThumbFields :=
  { top := top, mid := mid, low := i.extractLsb' 6 2, rs := i.extractLsb' 3 3, rd := i.extractLsb' 0 3 }

def encodeThumb5 (top : BitVec 5) (i : BitVec 5) (rs rd : LowReg) : ThumbFields :=
  { top := top, mid := i.extractLsb' 2 3, low := i.extractLsb' 0 2, rs := LowReg.bits rs, rd := LowReg.bits rd }

/-- Formats 2, 7 and 8: two selecting bits 10:9 and a 3-bit field 8:6. -/
def encodeThumb3 (top : BitVec 5) (b10 b9 : Bool) (x : BitVec 3) (rs rd : LowReg) : ThumbFields :=
  { top := top, mid := bits3 b10 b9 (x.getLsbD 2), low := x.extractLsb' 0 2, rs := LowReg.bits rs,
    rd := LowReg.bits rd }

def encodeThumbAlu (b9 b8 : Bool) (low : BitVec 2) (rd rs : LowReg) : ThumbFields :=
  { top := 8, mid := bits3 false b9 b8, low := low, rs := LowReg.bits rs, rd := LowReg.bits rd }

/-- Format 5: bits 9:8 and the two register numbers (R130). -/
def encodeThumbHi (b9 b8 : Bool) (rd rs : BitVec 4) : ThumbFields :=
  { top := 8, mid := bits3 true b9 b8, low := BitVec.ofBool (rd.getLsbD 3) ++ BitVec.ofBool (rs.getLsbD 3),
    rs := rs.extractLsb' 0 3, rd := rd.extractLsb' 0 3 }

/-- An encoded instruction: an ARM word or a Thumb halfword. -/
inductive Encoded where
  | arm (w : Word)
  | thumb (h : Half)
deriving DecidableEq, Repr

/-- The fields of an encoded instruction. -/
inductive EncodedFields where
  | arm (f : ArmFields)
  | thumb (f : ThumbFields)
deriving DecidableEq, Repr

def encodeFields : Instr → EncodedFields
  | .and c sb rd rn op2 => .arm (encodeDp c false false false false sb (Reg.bits rd) (Reg.bits rn) op2)
  | .eor c sb rd rn op2 => .arm (encodeDp c false false false true sb (Reg.bits rd) (Reg.bits rn) op2)
  | .sub c sb rd rn op2 => .arm (encodeDp c false false true false sb (Reg.bits rd) (Reg.bits rn) op2)
  | .rsb c sb rd rn op2 => .arm (encodeDp c false false true true sb (Reg.bits rd) (Reg.bits rn) op2)
  | .add c sb rd rn op2 => .arm (encodeDp c false true false false sb (Reg.bits rd) (Reg.bits rn) op2)
  | .adc c sb rd rn op2 => .arm (encodeDp c false true false true sb (Reg.bits rd) (Reg.bits rn) op2)
  | .sbc c sb rd rn op2 => .arm (encodeDp c false true true false sb (Reg.bits rd) (Reg.bits rn) op2)
  | .rsc c sb rd rn op2 => .arm (encodeDp c false true true true sb (Reg.bits rd) (Reg.bits rn) op2)
  | .tst c rn op2 => .arm (encodeDp c true false false false true 0 (Reg.bits rn) op2)
  | .teq c rn op2 => .arm (encodeDp c true false false true true 0 (Reg.bits rn) op2)
  | .cmp c rn op2 => .arm (encodeDp c true false true false true 0 (Reg.bits rn) op2)
  | .cmn c rn op2 => .arm (encodeDp c true false true true true 0 (Reg.bits rn) op2)
  | .orr c sb rd rn op2 => .arm (encodeDp c true true false false sb (Reg.bits rd) (Reg.bits rn) op2)
  | .mov c sb rd op2 => .arm (encodeDp c true true false true sb (Reg.bits rd) 0 op2)
  | .bic c sb rd rn op2 => .arm (encodeDp c true true true false sb (Reg.bits rd) (Reg.bits rn) op2)
  | .mvn c sb rd op2 => .arm (encodeDp c true true true true sb (Reg.bits rd) 0 op2)
  | .mul c sb rd rm rs => .arm (encodeMul c false false false sb (Reg.bits rd) 0 rs rm)
  | .mla c sb rd rm rs rn => .arm (encodeMul c false false true sb (Reg.bits rd) (Reg.bits rn) rs rm)
  | .umull c sb lo hi rm rs => .arm (encodeMul c true false false sb (Reg.bits hi) (Reg.bits lo) rs rm)
  | .umlal c sb lo hi rm rs => .arm (encodeMul c true false true sb (Reg.bits hi) (Reg.bits lo) rs rm)
  | .smull c sb lo hi rm rs => .arm (encodeMul c true true false sb (Reg.bits hi) (Reg.bits lo) rs rm)
  | .smlal c sb lo hi rm rs => .arm (encodeMul c true true true sb (Reg.bits hi) (Reg.bits lo) rs rm)
  | .smlaxy c x y rd rm rs rn => .arm (encodeMisc c false false (Reg.bits rd) (Reg.bits rn) (Reg.bits rs)
      (bits4 true y.bit x.bit false) (Reg.bits rm))
  | .smlawy c y rd rm rs rn => .arm (encodeMisc c false true (Reg.bits rd) (Reg.bits rn) (Reg.bits rs)
      (bits4 true y.bit false false) (Reg.bits rm))
  | .smulwy c y rd rm rs => .arm (encodeMisc c false true (Reg.bits rd) 0 (Reg.bits rs)
      (bits4 true y.bit true false) (Reg.bits rm))
  | .smlalxy c x y lo hi rm rs => .arm (encodeMisc c true false (Reg.bits hi) (Reg.bits lo) (Reg.bits rs)
      (bits4 true y.bit x.bit false) (Reg.bits rm))
  | .smulxy c x y rd rm rs => .arm (encodeMisc c true true (Reg.bits rd) 0 (Reg.bits rs)
      (bits4 true y.bit x.bit false) (Reg.bits rm))
  | .qadd c rd rm rn => .arm (encodeMisc c false false (Reg.bits rn) (Reg.bits rd) 0 5 (Reg.bits rm))
  | .qsub c rd rm rn => .arm (encodeMisc c false true (Reg.bits rn) (Reg.bits rd) 0 5 (Reg.bits rm))
  | .qdadd c rd rm rn => .arm (encodeMisc c true false (Reg.bits rn) (Reg.bits rd) 0 5 (Reg.bits rm))
  | .qdsub c rd rm rn => .arm (encodeMisc c true true (Reg.bits rn) (Reg.bits rd) 0 5 (Reg.bits rm))
  | .ldr c m up rd rn off => .arm (encodeSingle c m.pBit up false m.wBit true rd rn off)
  | .str c m up rd rn off => .arm (encodeSingle c m.pBit up false m.wBit false rd rn off)
  | .ldrb c m up rd rn off => .arm (encodeSingle c m.pBit up true m.wBit true rd rn off)
  | .strb c m up rd rn off => .arm (encodeSingle c m.pBit up true m.wBit false rd rn off)
  | .ldrt c up rd rn off => .arm (encodeSingle c false up false true true rd rn off)
  | .strt c up rd rn off => .arm (encodeSingle c false up false true false rd rn off)
  | .ldrbt c up rd rn off => .arm (encodeSingle c false up true true true rd rn off)
  | .strbt c up rd rn off => .arm (encodeSingle c false up true true false rd rn off)
  | .ldrh c m up rd rn off => .arm (encodeHalf c m up true false true rd rn off)
  | .strh c m up rd rn off => .arm (encodeHalf c m up false false true rd rn off)
  | .ldrsb c m up rd rn off => .arm (encodeHalf c m up true true false rd rn off)
  | .ldrsh c m up rd rn off => .arm (encodeHalf c m up true true true rd rn off)
  | .ldrd c m up rd rn off => .arm (encodeHalf c m up false true false rd rn off)
  | .strd c m up rd rn off => .arm (encodeHalf c m up false true true rd rn off)
  | .swp c rd rm rn => .arm (encodeMisc c false false (Reg.bits rn) (Reg.bits rd) 0 9 (Reg.bits rm))
  | .swpb c rd rm rn => .arm (encodeMisc c true false (Reg.bits rn) (Reg.bits rd) 0 9 (Reg.bits rm))
  | .ldm c m sb wb rn l => .arm (encodeBlock c m sb wb true rn l)
  | .stm c m sb wb rn l => .arm (encodeBlock c m sb wb false rn l)
  | .mrs c .cpsr rd => .arm (encodeMisc c false false 15 (Reg.bits rd) 0 0 0)
  | .mrs c .spsr rd => .arm (encodeMisc c true false 15 (Reg.bits rd) 0 0 0)
  | .msrCpsr c m src => .arm (encodeMsr c false m src)
  | .msrSpsr c m src => .arm (encodeMsr c true m src)
  | .b c i => .arm (encodeImm24 c true false true false i)
  | .bl c i => .arm (encodeImm24 c true false true true i)
  | .bx c rm => .arm (encodeMisc c false true 15 15 15 1 (Reg.bits rm))
  | .blx c rm => .arm (encodeMisc c false true 15 15 15 3 (Reg.bits rm))
  | .swi c i => .arm (encodeImm24 c true true true true i)
  | .bkpt c i => .arm (encodeMisc c false true (i.extractLsb' 12 4) (i.extractLsb' 8 4) (i.extractLsb' 4 4) 7
      (i.extractLsb' 0 4))
  | .undefined c u => .arm (encodeLow28 c u)
  | .tLslImm rd rs i => .thumb (encodeThumb5 0 i rs rd)
  | .tLsrImm rd rs i => .thumb (encodeThumb5 1 i rs rd)
  | .tAsrImm rd rs i => .thumb (encodeThumb5 2 i rs rd)
  | .tAddReg rd rs rn => .thumb (encodeThumb3 3 false false (LowReg.bits rn) rs rd)
  | .tSubReg rd rs rn => .thumb (encodeThumb3 3 false true (LowReg.bits rn) rs rd)
  | .tAddImm3 rd rs i => .thumb (encodeThumb3 3 true false i rs rd)
  | .tSubImm3 rd rs i => .thumb (encodeThumb3 3 true true i rs rd)
  | .tMovImm rd i => .thumb (encodeThumb8 4 (LowReg.bits rd) i)
  | .tCmpImm rd i => .thumb (encodeThumb8 5 (LowReg.bits rd) i)
  | .tAddImm8 rd i => .thumb (encodeThumb8 6 (LowReg.bits rd) i)
  | .tSubImm8 rd i => .thumb (encodeThumb8 7 (LowReg.bits rd) i)
  | .tAnd rd rs => .thumb (encodeThumbAlu false false 0 rd rs)
  | .tEor rd rs => .thumb (encodeThumbAlu false false 1 rd rs)
  | .tLslReg rd rs => .thumb (encodeThumbAlu false false 2 rd rs)
  | .tLsrReg rd rs => .thumb (encodeThumbAlu false false 3 rd rs)
  | .tAsrReg rd rs => .thumb (encodeThumbAlu false true 0 rd rs)
  | .tAdc rd rs => .thumb (encodeThumbAlu false true 1 rd rs)
  | .tSbc rd rs => .thumb (encodeThumbAlu false true 2 rd rs)
  | .tRorReg rd rs => .thumb (encodeThumbAlu false true 3 rd rs)
  | .tTst rd rs => .thumb (encodeThumbAlu true false 0 rd rs)
  | .tNeg rd rs => .thumb (encodeThumbAlu true false 1 rd rs)
  | .tCmpReg rd rs => .thumb (encodeThumbAlu true false 2 rd rs)
  | .tCmn rd rs => .thumb (encodeThumbAlu true false 3 rd rs)
  | .tOrr rd rs => .thumb (encodeThumbAlu true true 0 rd rs)
  | .tMul rd rs => .thumb (encodeThumbAlu true true 1 rd rs)
  | .tBic rd rs => .thumb (encodeThumbAlu true true 2 rd rs)
  | .tMvn rd rs => .thumb (encodeThumbAlu true true 3 rd rs)
  | .tAddHi rd rs => .thumb (encodeThumbHi false false (Reg.bits rd) (Reg.bits rs))
  | .tCmpHi rd rs => .thumb (encodeThumbHi false true (Reg.bits rd) (Reg.bits rs))
  | .tMovHi rd rs => .thumb (encodeThumbHi true false (Reg.bits rd) (Reg.bits rs))
  | .tBx rs => .thumb (encodeThumbHi true true 0 (Reg.bits rs))
  | .tBlx rs => .thumb (encodeThumbHi true true 8 (Reg.bits rs))
  | .tLdrPc rd i => .thumb (encodeThumb8 9 (LowReg.bits rd) i)
  | .tStrReg rd rb ro => .thumb (encodeThumb3 10 false false (LowReg.bits ro) rb rd)
  | .tStrhReg rd rb ro => .thumb (encodeThumb3 10 false true (LowReg.bits ro) rb rd)
  | .tStrbReg rd rb ro => .thumb (encodeThumb3 10 true false (LowReg.bits ro) rb rd)
  | .tLdsbReg rd rb ro => .thumb (encodeThumb3 10 true true (LowReg.bits ro) rb rd)
  | .tLdrReg rd rb ro => .thumb (encodeThumb3 11 false false (LowReg.bits ro) rb rd)
  | .tLdrhReg rd rb ro => .thumb (encodeThumb3 11 false true (LowReg.bits ro) rb rd)
  | .tLdrbReg rd rb ro => .thumb (encodeThumb3 11 true false (LowReg.bits ro) rb rd)
  | .tLdshReg rd rb ro => .thumb (encodeThumb3 11 true true (LowReg.bits ro) rb rd)
  | .tStrImm rd rb i => .thumb (encodeThumb5 12 i rb rd)
  | .tLdrImm rd rb i => .thumb (encodeThumb5 13 i rb rd)
  | .tStrbImm rd rb i => .thumb (encodeThumb5 14 i rb rd)
  | .tLdrbImm rd rb i => .thumb (encodeThumb5 15 i rb rd)
  | .tStrhImm rd rb i => .thumb (encodeThumb5 16 i rb rd)
  | .tLdrhImm rd rb i => .thumb (encodeThumb5 17 i rb rd)
  | .tStrSp rd i => .thumb (encodeThumb8 18 (LowReg.bits rd) i)
  | .tLdrSp rd i => .thumb (encodeThumb8 19 (LowReg.bits rd) i)
  | .tAddPc rd i => .thumb (encodeThumb8 20 (LowReg.bits rd) i)
  | .tAddSp rd i => .thumb (encodeThumb8 21 (LowReg.bits rd) i)
  | .tAddSpImm i => .thumb (encodeThumb8 22 0 (0#1 ++ i))
  | .tSubSpImm i => .thumb (encodeThumb8 22 0 (1#1 ++ i))
  | .tPush r l => .thumb (encodeThumb8 22 (bits3 true false r) l)
  | .tPop r l => .thumb (encodeThumb8 23 (bits3 true false r) l)
  | .tStmia rb l => .thumb (encodeThumb8 24 (LowReg.bits rb) l)
  | .tLdmia rb l => .thumb (encodeThumb8 25 (LowReg.bits rb) l)
  | .tBCond c s => .thumb (encodeThumb8 (13#4 ++ BitVec.ofBool (c.bits.getLsbD 3)) (c.bits.extractLsb' 0 3) s)
  | .tSwi i => .thumb (encodeThumb8 27 7 i)
  | .tB o => .thumb (encodeThumb11 28 o)
  | .tBkpt i => .thumb (encodeThumb8 23 6 i)
  | .tBlHigh o => .thumb (encodeThumb11 30 o)
  | .tBlLow o => .thumb (encodeThumb11 31 o)
  | .tUndefined h => .thumb (splitThumb h)

/-- The word or halfword of an instruction. -/
def encode (i : Instr) : Encoded :=
  match encodeFields i with
  | .arm f => .arm (joinArm f)
  | .thumb f => .thumb (joinThumb f)

/-- The instruction of an encoded word, by the decoder of its set. -/
def decode : Encoded → Instr
  | .arm w => decodeArm w
  | .thumb h => decodeThumb h

end Sys2Proof
end

