-- ==== Sys2Proof/Config.lean ====
section
/-! DEFINITION. What is fixed for one machine: the model arguments the spec leaves open (R5 and the table of
open parameters of 92_eei_decisions.md), each with the value this hardware takes, and the free values. A
`Config` is plain data that `State` carries and no step changes, so that every statement about a state holds
for every value of every parameter (assumption log 4). -/

namespace Sys2Proof

/-- `STM_BASE_IN_LIST` (R335, decision D19): the value STM stores for its base register when the base is in
the list and is written back. -/
inductive StoredBaseRule where
  /-- the base as it was before the transfer, wherever it stands in the list (this hardware) -/
  | original
  /-- the original base if it is the lowest register listed, else the written-back value -/
  | arm7tdmi
deriving DecidableEq, Repr

/-- The two values `PC_REGSHIFT_OFFSET` and `PC_STORE_OFFSET` can take (decision D5). -/
inductive PcOffset where
  | plus8
  | plus12
deriving DecidableEq, Repr

/-- `cycleCost` (R590, decision D26): one cycle a step (the default), the informative ARM7TDMI classes of R591
without wait states, or a function nothing is known of but that it is positive. -/
inductive CycleRule where
  | unit
  | arm7tdmi
  | unspecified
deriving DecidableEq, Repr

/-- What a flag-setting multiply leaves in C, and a long one in V: the decided behaviour of R263 (decision
D18), or U10's recommended treatment, any value (assumption log 6). -/
inductive MultiplyFlagRule where
  | unchanged
  | anyValue
deriving DecidableEq, Repr

/-- The model arguments of the hardware. -/
structure Config where
  /-- `STM_BASE_IN_LIST` (R335) -/
  stmBaseInList : StoredBaseRule
  /-- `PC_REGSHIFT_OFFSET` (R175) -/
  pcRegShiftOffset : PcOffset
  /-- `PC_STORE_OFFSET` (R175) -/
  pcStoreOffset : PcOffset
  /-- `IRQ_ACK_CLEARS` (R530) -/
  irqAckClears : Bool
  /-- `HAS_FIQ_LINE` (R42, R530) -/
  hasFiqLine : Bool
  /-- `cycleCost` (R590) -/
  cycleRule : CycleRule
  /-- the C and V flags after a flag-setting multiply (R263, U10) -/
  multiplyFlags : MultiplyFlagRule
deriving DecidableEq, Repr

/-- The values R5 and 92_eei_decisions.md give for this hardware. -/
def Config.default : Config where
  stmBaseInList := .original
  pcRegShiftOffset := .plus12
  pcStoreOffset := .plus12
  irqAckClears := false
  hasFiqLine := false
  cycleRule := .unit
  multiplyFlags := .unchanged

/-- The identity of the modelled hardware, the string that R1 says a model should carry. -/
def Config.identity : String := "kxkx5150/CPU-ARM7TDMI-cpp CORE (ARM7TDMI-class)"

/-- What a byte of memory that nothing has written reads as (assumption log 2: DESIGN CHOICE). -/
def Config.unlistedByte : Byte := 0

/-- The free one-bit values of `MultiplyFlagRule.anyValue`, numbered by a counter in State. -/
opaque Config.freeBit : Nat → Bool

end Sys2Proof
end

