-- ==== Sys2Proof/Machine/Memory.lean ====
section
/-! DEFINITION. Memory as a list of the bytes that differ from what an unlisted address reads as, in rising
order of address (R60, R65; assumption log 2, 3), and the little-endian halfword and word on it (R64). -/

namespace Sys2Proof.Machine

/-- The listed bytes, by address. -/
abbrev Memory := List Host.Cell

/-- The byte at an address. -/
def Memory.read (m : Memory) (a : Nat) : Byte :=
  match m with
  | [] => Config.unlistedByte
  | cell :: rest => if cell.1 = a then cell.2 else Memory.read rest a

/-- Puts a cell before the first listed address that is not lower. -/
def Memory.insert (m : Memory) (a : Nat) (b : Byte) : Memory :=
  match m with
  | [] => [(a, b)]
  | cell :: rest => if cell.1 < a then cell :: Memory.insert rest a b else (a, b) :: cell :: rest

/-- Removes an address from the list. -/
def Memory.erase (m : Memory) (a : Nat) : Memory :=
  match m with
  | [] => []
  | cell :: rest => if cell.1 = a then Memory.erase rest a else cell :: Memory.erase rest a

/-- Writes a byte; a byte equal to what an unlisted address reads as is not listed. -/
def Memory.write (m : Memory) (a : Nat) (b : Byte) : Memory :=
  if b = Config.unlistedByte then m.erase a else (m.erase a).insert a b

/-- The canonical form, from a lowest allowed address on. -/
def Memory.wfFrom (lo : Nat) (m : Memory) : Bool :=
  match m with
  | [] => true
  | cell :: rest =>
    decide (lo ≤ cell.1) && decide (cell.1 < 2 ^ 32) && (cell.2 != Config.unlistedByte) &&
      Memory.wfFrom (cell.1 + 1) rest

/-- The canonical form: strictly rising addresses below 2^32, no entry equal to what an unlisted address reads
as. -/
def Memory.wf (m : Memory) : Bool := Memory.wfFrom 0 m

/-! ## Sizes -/

/-- The access sizes the core issues (R62). -/
inductive AccessSize where
  | byte | half | word
deriving DecidableEq, Repr

/-- The number of bytes. -/
def sizeBytes : AccessSize → Nat
  | .byte => 1 | .half => 2 | .word => 4

/-- `Align(addr, n)` for the access size n (R65). -/
def alignTo (size : AccessSize) (a : Word) : Word :=
  match size with
  | .byte => a
  | .half => a &&& 0xFFFFFFFE#32
  | .word => a &&& 0xFFFFFFFC#32

/-- The byte at a 32-bit address. -/
def Memory.byteAt (m : Memory) (a : Word) : Byte := m.read a.toNat

/-- `MemRead(addr, n)` on the byte array (R65): little-endian, at the aligned address, zero-extended. -/
def Memory.readSized (m : Memory) (size : AccessSize) (addr : Word) : Word :=
  let a := alignTo size addr
  match size with
  | .byte => (m.byteAt a).setWidth 32
  | .half => (m.byteAt (a + 1) ++ m.byteAt a).setWidth 32
  | .word => m.byteAt (a + 3) ++ m.byteAt (a + 2) ++ m.byteAt (a + 1) ++ m.byteAt a

/-- `MemWrite(addr, n, v)` on the byte array (R65): the low n bytes of v, little-endian, at the aligned address. -/
def Memory.writeSized (m : Memory) (size : AccessSize) (addr : Word) (v : Word) : Memory :=
  let a := alignTo size addr
  match size with
  | .byte => m.write a.toNat (v.extractLsb' 0 8)
  | .half => (m.write a.toNat (v.extractLsb' 0 8)).write (a + 1).toNat (v.extractLsb' 8 8)
  | .word =>
    (((m.write a.toNat (v.extractLsb' 0 8)).write (a + 1).toNat (v.extractLsb' 8 8)).write (a + 2).toNat
      (v.extractLsb' 16 8)).write (a + 3).toNat (v.extractLsb' 24 8)

end Sys2Proof.Machine
end

