-- ==== Sys2Proof/Machine/State.lean ====
section
/-! DEFINITION. The state of the machine (10_state.md) as plain data, the reasons a step can stop, and the state
after reset (R45, R560). -/

namespace Sys2Proof.Machine

/-- One access on the Bus with its attributes (R61, R63, R85). -/
structure BusAccess where
  /-- a write, else a read -/
  write : Bool
  /-- the address after alignment (R65) -/
  addr : Word
  size : AccessSize
  /-- access class: sequential, else non-sequential -/
  sequential : Bool
  /-- the user attribute -/
  user : Bool
  /-- the value read or written, zero-extended -/
  value : Word
deriving DecidableEq, Repr

/-- The whole state: the tuple at the head of 10_state.md, the two inputs of R42, memory, and three fields of
the model's own (`cfg`, `bus`, `freeIdx`; assumption log 4, 9, 14). -/
structure State where
  /-- the model arguments (R5) -/
  cfg : Config
  /-- `R[0..15]`, the live registers (R20); `R[15]` is the fetch address (R39) -/
  regs : Vector Word 16
  /-- `bank_usr[8..14]` (R22) -/
  bankUsr : Vector Word 7
  /-- `bank_fiq[8..14]` -/
  bankFiq : Vector Word 7
  /-- `bank_irq[13..14]` -/
  bankIrq : Vector Word 2
  /-- `bank_svc[13..14]` -/
  bankSvc : Vector Word 2
  /-- `bank_abt[13..14]` -/
  bankAbt : Vector Word 2
  /-- `bank_und[13..14]` -/
  bankUnd : Vector Word 2
  /-- the current status word (R27) -/
  cpsr : Psr
  /-- the saved status words (R33) -/
  spsrFiq : Psr
  spsrIrq : Psr
  spsrSvc : Psr
  spsrAbt : Psr
  spsrUnd : Psr
  /-- `slot[0]`, the fetched instruction that executes next (R37) -/
  slot0 : Word
  /-- `slot[1]`, the one after it -/
  slot1 : Word
  /-- the discard flag (R38) -/
  flush : Bool
  /-- the low-power wait flag (R41) -/
  halted : Bool
  /-- elapsed cycles (R43) -/
  cycles : Nat
  /-- the Interrupt Line's mask (R42) -/
  pending : Word
  /-- the fast-interrupt input (R42) -/
  fiqLine : Bool
  /-- storage behind the Bus (R65) -/
  mem : Memory
  /-- the accesses of the step just made, oldest first -/
  bus : List BusAccess
  /-- how many free bits have been drawn (U10) -/
  freeIdx : Nat
deriving DecidableEq, Repr

/-- Reasons for a fault. There is none, so no step of the model ever faults: `step()` "never fails" (R565), no
access is refused by the Bus (R86), and every exception is a next state (R520, R525). Safe: nothing raises it
(assumption log 16). -/
inductive Fault where
deriving DecidableEq, Repr

/-- Reasons for a refusal. -/
inductive Refusal where
  /-- An instruction of the opcode table that has no meaning yet, by its mnemonic; raised by no arm of `exec`.
  Safe: the model stops. -/
  | notModelled (mnemonic : String)
deriving DecidableEq, Repr

/-- A cleared status word: what R45 gives every SPSR. -/
def zeroPsr : Psr where
  n := false
  z := false
  c := false
  v := false
  q := false
  i := false
  f := false
  t := false
  m := 0

/-- The reset value of CPSR, 0x000000D3: Supervisor, ARM state, I = F = 1 (R45). -/
def resetPsr : Psr where
  n := false
  z := false
  c := false
  v := false
  q := false
  i := true
  f := true
  t := false
  m := modeSvc

/-- A register file of zeros with `R[15] = 8`: the reset vector plus 2w (R45). -/
def resetRegs : Vector Word 16 := #v[0, 0, 0, 0, 0, 0, 0, 0, 0, 0, 0, 0, 0, 0, 0, 8]

/-- The state after `reset()` (R45, R560) on memory that lists nothing: both slots hold what the two fetches of
the reload read, which is 0 (assumption log 1, 2, 9). -/
def State.reset : State where
  cfg := Config.default
  regs := resetRegs
  bankUsr := #v[0, 0, 0, 0, 0, 0, 0]
  bankFiq := #v[0, 0, 0, 0, 0, 0, 0]
  bankIrq := #v[0, 0]
  bankSvc := #v[0, 0]
  bankAbt := #v[0, 0]
  bankUnd := #v[0, 0]
  cpsr := resetPsr
  spsrFiq := zeroPsr
  spsrIrq := zeroPsr
  spsrSvc := zeroPsr
  spsrAbt := zeroPsr
  spsrUnd := zeroPsr
  slot0 := 0
  slot1 := 0
  flush := false
  halted := false
  cycles := 0
  pending := 0
  fiqLine := false
  mem := []
  bus :=
    [{ write := false, addr := 0, size := .word, sequential := false, user := false, value := 0 },
     { write := false, addr := 4, size := .word, sequential := true, user := false, value := 0 }]
  freeIdx := 0

end Sys2Proof.Machine
end

