-- ==== Sys2Proof/Machine/Timing.lean ====
section
/-! DEFINITION. `cycleCost` (R590): what a step reports of itself, the multiplier's extra cycles (R266), the
informative ARM7TDMI cycle classes (R591), and the choice among the model's cost functions (assumption log 5,
23). No value of a register or of memory depends on anything here. -/

namespace Sys2Proof.Machine

/-- What a step did. -/
inductive StepKind where
  /-- a halted step (R542) -/
  | halted
  /-- an interrupt entry (R530) -/
  | interrupt
  /-- an instruction, whether its condition passed, and the operand that sets the multiplier's cycles (R266) -/
  | executed (i : Instr) (passed : Bool) (multiplier : Word)
deriving DecidableEq, Repr

/-- The ingredients of a step's cost (R590). -/
structure StepReport where
  kind : StepKind
  /-- the pipeline was reloaded -/
  reloaded : Bool
  /-- the accesses with their classes -/
  bus : List BusAccess
deriving DecidableEq, Repr

/-- Sequential, non-sequential and internal cycles. -/
structure CycleCount where
  s : Nat
  n : Nat
  i : Nat
deriving DecidableEq, Repr

/-- The multiplier's m of R266: how many low bytes of the operand carry more than zeros, or than sign bits in the
signed forms. -/
def multiplierCycles (signed : Bool) (v : Word) : Nat :=
  let small (n : Nat) : Bool := (v >>> n == 0) || (signed && (v.sshiftRight n == BitVec.allOnes 32))
  if small 8 then 1 else if small 16 then 2 else if small 24 then 3 else 4

/-- The number of registers of a list, 1 for an empty one (R340). -/
def transferCount {n : Nat} (list : BitVec n) : Nat :=
  max 1 ((List.range n).countP fun k => list.getLsbD k)

/-- The informative row of R591 for an instruction whose condition passed, without its reload. -/
def instrCycles (i : Instr) (v : Word) : CycleCount :=
  let loads (n : Nat) : CycleCount := ⟨n, 1, 1⟩
  let stores (n : Nat) : CycleCount := ⟨n - 1, 2, 0⟩
  let dp (op2 : Operand2) : CycleCount :=
    match op2 with
    | .imm .. => ⟨1, 0, 0⟩
    | .shiftImm .. => ⟨1, 0, 0⟩
    | .shiftReg .. => ⟨1, 0, 1⟩
  match i with
  | .and _ _ _ _ op2 | .eor _ _ _ _ op2 | .sub _ _ _ _ op2 | .rsb _ _ _ _ op2 | .add _ _ _ _ op2
  | .adc _ _ _ _ op2 | .sbc _ _ _ _ op2 | .rsc _ _ _ _ op2 | .orr _ _ _ _ op2 | .bic _ _ _ _ op2
  | .mov _ _ _ op2 | .mvn _ _ _ op2 | .tst _ _ op2 | .teq _ _ op2 | .cmp _ _ op2 | .cmn _ _ op2 => dp op2
  | .mul .. => ⟨1, 0, multiplierCycles true v⟩
  | .tMul .. => ⟨1, 0, multiplierCycles true v⟩
  | .mla .. => ⟨1, 0, multiplierCycles true v + 1⟩
  | .umull .. => ⟨1, 0, multiplierCycles false v + 1⟩
  | .smull .. => ⟨1, 0, multiplierCycles true v + 1⟩
  | .umlal .. => ⟨1, 0, multiplierCycles false v + 2⟩
  | .smlal .. => ⟨1, 0, multiplierCycles true v + 2⟩
  | .smlaxy .. | .smlawy .. | .smulwy .. | .smlalxy .. | .smulxy .. => ⟨1, 0, 1⟩
  | .ldr .. | .ldrb .. | .ldrt .. | .ldrbt .. | .ldrh .. | .ldrsb .. | .ldrsh ..
  | .tLdrPc .. | .tLdrReg .. | .tLdrbReg .. | .tLdsbReg .. | .tLdrhReg .. | .tLdshReg .. | .tLdrImm ..
  | .tLdrbImm .. | .tLdrhImm .. | .tLdrSp .. => loads 1
  | .str .. | .strb .. | .strt .. | .strbt .. | .strh ..
  | .tStrReg .. | .tStrbReg .. | .tStrhReg .. | .tStrImm .. | .tStrbImm .. | .tStrhImm .. | .tStrSp .. => stores 1
  | .ldrd .. => loads 2
  | .strd .. => stores 2
  | .ldm _ _ _ _ _ list => loads (transferCount list)
  | .stm _ _ _ _ _ list => stores (transferCount list)
  | .tLdmia _ list => loads (transferCount list)
  | .tStmia _ list => stores (transferCount list)
  | .tPop r list => loads (transferCount (BitVec.ofBool r ++ list))
  | .tPush r list => stores (transferCount (BitVec.ofBool r ++ list))
  | .swp .. | .swpb .. => ⟨1, 2, 1⟩
  | .undefined .. | .tUndefined .. => ⟨1, 0, 1⟩
  | .tLslReg .. | .tLsrReg .. | .tAsrReg .. | .tRorReg .. => ⟨1, 0, 1⟩
  | _ => ⟨1, 0, 0⟩

/-- The informative cycle classes of a step (R591). -/
def stepCycles (r : StepReport) : CycleCount :=
  let base : CycleCount :=
    match r.kind with
    | .halted => ⟨0, 0, 1⟩
    | .interrupt => ⟨1, 0, 0⟩
    | .executed i passed v => if passed then instrCycles i v else ⟨1, 0, 0⟩
  if r.reloaded then { base with s := base.s + 1, n := base.n + 1 } else base

/-- Nothing is known of what an unspecified cost adds to the one cycle that every step takes (R590). -/
opaque Config.extraCycles : StepReport → Nat

/-- `cycleCost(step)` (R590): at least 1. -/
def cycleCost (rule : CycleRule) (r : StepReport) : Nat :=
  match rule with
  | .unit => 1
  | .arm7tdmi => (stepCycles r).s + (stepCycles r).n + (stepCycles r).i
  | .unspecified => 1 + Config.extraCycles r

end Sys2Proof.Machine
end

