-- ==== Sys2Proof/Machine/Ops.lean ====
section
/-! DEFINITION. The named operations over registers, banks, status words, memory and the pipeline: every read
and write of State goes through them. Taking an exception (R525) and returning from one (R212) stand here,
once; so do the parts of a step (R170 to R173, R530). -/

namespace Sys2Proof.Machine

/-! ## General registers and the program counter (R20, R175, R176) -/

/-- `R[i]`, the live register (R20); for 15 it is the fetch address (R39). -/
def State.reg (s : State) (r : Reg) : Word := s.regs[r]

/-- `R[i] <- v`. -/
def State.setReg (s : State) (r : Reg) (v : Word) : State := { s with regs := s.regs.set r v }

/-- The instruction width w of the current state (R32). -/
def State.width (s : State) : Word := widthOf s.cpsr.t

/-- The address A of the executing instruction: `R[15] - 2w` (R175). At a step boundary the same expression is
N, the address of the next instruction (R527). -/
def State.instrAddr (s : State) : Word := s.reg 15 - 2 * s.width

/-- `PCread(k)` (R175). -/
def State.pcRead (s : State) (k : Word) : Word := s.instrAddr + k

/-- The number of bytes of an offset parameter (R175). -/
def pcOffsetBytes : PcOffset → Word
  | .plus8 => 8
  | .plus12 => 12

/-- `Rop[i]` with the offset k of the reader (R175). -/
def State.rop (s : State) (k : Word) (r : Reg) : Word := if r = 15 then s.pcRead k else s.reg r

/-- `pc <- target` (R176): alignment is left to the reload. -/
def State.setPc (s : State) (target : Word) : State := { s.setReg 15 target with flush := true }

/-- A write of a destination register: r15 through `pc <- v` (R176). -/
def State.writeReg (s : State) (r : Reg) (v : Word) : State := if r = 15 then s.setPc v else s.setReg r v

/-- A change of the current status word's fields. -/
def State.setCpsr (s : State) (p : Psr) : State := { s with cpsr := p }

/-- The outcome type of a meaning and of a step. -/
abbrev Outcome := Host.Outcome State Fault Refusal

/-- An ARM instruction's effect, if its condition passes; otherwise nothing (R181). -/
def State.whenCond (s : State) (c : Cond) (effect : State → State) : State :=
  if condPass c s.cpsr then effect s else s

/-! ## Banks and the mode switch (R22 to R25, R371) -/

/-- A shadow cell of a bank; a register the bank does not hold has none. -/
def State.shadow (s : State) (b : Bank) (n : Reg) : Word :=
  match b with
  | .usr => s.bankUsr.toArray.getD (n.val - 8) 0
  | .fiq => s.bankFiq.toArray.getD (n.val - 8) 0
  | .irq => s.bankIrq.toArray.getD (n.val - 13) 0
  | .svc => s.bankSvc.toArray.getD (n.val - 13) 0
  | .abt => s.bankAbt.toArray.getD (n.val - 13) 0
  | .und => s.bankUnd.toArray.getD (n.val - 13) 0

/-- A write of a shadow cell. -/
def State.setShadow (s : State) (b : Bank) (n : Reg) (v : Word) : State :=
  match b with
  | .usr => { s with bankUsr := s.bankUsr.setIfInBounds (n.val - 8) v }
  | .fiq => { s with bankFiq := s.bankFiq.setIfInBounds (n.val - 8) v }
  | .irq => { s with bankIrq := s.bankIrq.setIfInBounds (n.val - 13) v }
  | .svc => { s with bankSvc := s.bankSvc.setIfInBounds (n.val - 13) v }
  | .abt => { s with bankAbt := s.bankAbt.setIfInBounds (n.val - 13) v }
  | .und => { s with bankUnd := s.bankUnd.setIfInBounds (n.val - 13) v }

/-- `RegMode(m, n)` (R25): the live register when the homes agree, else the shadow cell. -/
def State.regMode (s : State) (m : BitVec 5) (n : Reg) : Word :=
  match homeOf m n with
  | none => s.reg n
  | some b => if homeOf s.cpsr.m n = some b then s.reg n else s.shadow b n

/-- `RegMode(m, n) <- v` (R25). -/
def State.setRegMode (s : State) (m : BitVec 5) (n : Reg) (v : Word) : State :=
  match homeOf m n with
  | none => s.setReg n v
  | some b => if homeOf s.cpsr.m n = some b then s.setReg n v else s.setShadow b n v

/-- The live r8 to r12 over a bank's upper two cells: step (a) of R371 for an outgoing bank that is not FIQ. -/
def State.saveCommon (s : State) : Vector Word 7 :=
  #v[s.reg 8, s.reg 9, s.reg 10, s.reg 11, s.reg 12, s.bankUsr[5], s.bankUsr[6]]

/-- The live window r8 to r14. -/
def State.window (s : State) : Vector Word 7 :=
  #v[s.reg 8, s.reg 9, s.reg 10, s.reg 11, s.reg 12, s.reg 13, s.reg 14]

/-- The live r13 and r14. -/
def State.topWindow (s : State) : Vector Word 2 := #v[s.reg 13, s.reg 14]

/-- Step (a) of R371: the outgoing mode's registers into its bank. -/
def State.saveBank (s : State) (b : Bank) : State :=
  match b with
  | .fiq => { s with bankFiq := s.window }
  | .usr => { s with bankUsr := s.window }
  | .irq => { s with bankUsr := s.saveCommon, bankIrq := s.topWindow }
  | .svc => { s with bankUsr := s.saveCommon, bankSvc := s.topWindow }
  | .abt => { s with bankUsr := s.saveCommon, bankAbt := s.topWindow }
  | .und => { s with bankUsr := s.saveCommon, bankUnd := s.topWindow }

/-- Writes r13 and r14. -/
def State.setTop (s : State) (a b : Word) : State := (s.setReg 13 a).setReg 14 b

/-- Writes r8 to r12 from the first five cells of a seven-register bank. -/
def State.setCommon (s : State) (v : Vector Word 7) : State :=
  ((((s.setReg 8 v[0]).setReg 9 v[1]).setReg 10 v[2]).setReg 11 v[3]).setReg 12 v[4]

/-- Step (b) of R371: the incoming mode's bank into the live registers. -/
def State.loadBank (s : State) (b : Bank) : State :=
  match b with
  | .fiq => (s.setCommon s.bankFiq).setTop s.bankFiq[5] s.bankFiq[6]
  | .usr => (s.setCommon s.bankUsr).setTop s.bankUsr[5] s.bankUsr[6]
  | .irq => (s.setCommon s.bankUsr).setTop s.bankIrq[0] s.bankIrq[1]
  | .svc => (s.setCommon s.bankUsr).setTop s.bankSvc[0] s.bankSvc[1]
  | .abt => (s.setCommon s.bankUsr).setTop s.bankAbt[0] s.bankAbt[1]
  | .und => (s.setCommon s.bankUsr).setTop s.bankUnd[0] s.bankUnd[1]

/-- Steps (a) and (b) of R371 from bank to bank. -/
def State.moveBanks (s : State) (ob nb : Bank) : State :=
  if ob = nb then s else (s.saveBank ob).loadBank nb

/-- `SwitchMode(m)` (R371). -/
def State.switchMode (s : State) (m : BitVec 5) : State :=
  let s1 := s.moveBanks (bankOf s.cpsr.m) (bankOf m)
  s1.setCpsr { s1.cpsr with m := m }

/-! ## Saved status words (R33, R34) -/

/-- The SPSR of a bank; the user bank has none. -/
def State.spsrOf (s : State) (b : Bank) : Option Psr :=
  match b with
  | .usr => none
  | .fiq => some s.spsrFiq
  | .irq => some s.spsrIrq
  | .svc => some s.spsrSvc
  | .abt => some s.spsrAbt
  | .und => some s.spsrUnd

/-- A write of a bank's SPSR; for the user bank nothing is written (R34). -/
def State.setSpsrOf (s : State) (b : Bank) (p : Psr) : State :=
  match b with
  | .usr => s
  | .fiq => { s with spsrFiq := p }
  | .irq => { s with spsrIrq := p }
  | .svc => { s with spsrSvc := p }
  | .abt => { s with spsrAbt := p }
  | .und => { s with spsrUnd := p }

/-- `SPSR`, of the current mode (R33). -/
def State.spsr (s : State) : Option Psr := s.spsrOf (bankOf s.cpsr.m)

/-- The copy CPSR <- SPSR (R212, R339): through the mode switch; without an SPSR nothing changes (R34). The
caller writes r15 afterwards. -/
def State.restoreCpsr (s : State) : State :=
  match s.spsr with
  | none => s
  | some p => (s.switchMode p.m).setCpsr p

/-- Return from an exception (R535): the copy, then `pc <- target`. -/
def State.exceptionReturn (s : State) (target : Word) : State := s.restoreCpsr.setPc target

/-! ## Exceptions (R521, R525) -/

/-- The exceptions of R521 but reset. `dataAbort` is never raised (R523). -/
inductive Exception where
  | undefinedInstruction | supervisorCall | prefetchAbort | dataAbort | irq | fiq
deriving DecidableEq, Repr

/-- The vector column of R521. -/
def vectorOf : Exception → Word
  | .undefinedInstruction => 0x04
  | .supervisorCall => 0x08
  | .prefetchAbort => 0x0C
  | .dataAbort => 0x10
  | .irq => 0x18
  | .fiq => 0x1C

/-- The mode column of R521. -/
def modeOf : Exception → BitVec 5
  | .undefinedInstruction => modeUnd
  | .supervisorCall => modeSvc
  | .prefetchAbort => modeAbt
  | .dataAbort => modeAbt
  | .irq => modeIrq
  | .fiq => modeFiq

/-- `Enter(E, ret)` (R525): the old CPSR into the SPSR of the mode entered, the return address into its r14,
ARM state, I set, F set for FIQ only, and the pc at the vector. -/
def State.enter (s : State) (e : Exception) (ret : Word) : State :=
  let old := s.cpsr
  let s1 := (s.switchMode (modeOf e)).setSpsrOf (bankOf (modeOf e)) old
  let s2 := s1.setReg 14 ret
  let s3 := s2.setCpsr { s2.cpsr with t := false, i := true, f := s2.cpsr.f || (e == .fiq) }
  s3.setPc (vectorOf e)

/-- SWI and UNDEFINED: the return address is the next instruction's, A + w (R527). -/
def State.raiseNext (s : State) (e : Exception) : State := s.enter e (s.instrAddr + s.width)

/-- BKPT and the interrupts: the return address is the instruction's, or the next one's, plus 4 (R527). -/
def State.raisePlus4 (s : State) (e : Exception) : State := s.enter e (s.instrAddr + 4)

/-! ## The Bus (R61 to R66) -/

/-- The user attribute: 1 in User mode, or forced by the T forms (R63). -/
def State.userAttr (s : State) (forced : Bool) : Bool := forced || s.cpsr.m == modeUsr

/-- The value of `MemRead(addr, n)` (R65). -/
def State.memRead (s : State) (size : AccessSize) (addr : Word) : Word := s.mem.readSized size addr

/-- The record of a read on the Bus. -/
def State.noteRead (s : State) (size : AccessSize) (addr : Word) (sequential forced : Bool) : State :=
  let a : BusAccess :=
    { write := false, addr := alignTo size addr, size := size, sequential := sequential,
      user := s.userAttr forced, value := s.memRead size addr }
  { s with bus := s.bus ++ [a] }

/-- The low n bytes of a value, zero-extended: what a write puts on the Bus (R65). -/
def lowBytes (size : AccessSize) (v : Word) : Word :=
  match size with
  | .byte => v &&& 0xFF#32
  | .half => v &&& 0xFFFF#32
  | .word => v

/-- `MemWrite(addr, n, v)` (R65). -/
def State.memWrite (s : State) (size : AccessSize) (addr v : Word) (sequential forced : Bool) : State :=
  let a : BusAccess :=
    { write := true, addr := alignTo size addr, size := size, sequential := sequential,
      user := s.userAttr forced, value := lowBytes size v }
  { s with mem := s.mem.writeSized size addr v, bus := s.bus ++ [a] }

/-- `LoadWord(addr)` (R68): the aligned word rotated right by 8 * addr[1:0]. -/
def State.loadWord (s : State) (addr : Word) : Word :=
  ror32 (s.memRead .word addr) (8 * (addr.extractLsb' 0 2).toNat)

/-- `zext_8(MemRead(addr, 1))` (R72). -/
def State.loadByte (s : State) (addr : Word) : Word := s.memRead .byte addr

/-- `sext_8(MemRead(addr, 1))` (R72). -/
def State.loadByteSigned (s : State) (addr : Word) : Word := sext ((s.memRead .byte addr).setWidth 8)

/-- `LoadHalf(addr)` (R70): at an odd address rotated right by 8. -/
def State.loadHalf (s : State) (addr : Word) : Word :=
  ror32 (s.memRead .half addr) (if addr.getLsbD 0 then 8 else 0)

/-- `LoadHalfSigned(addr)` (R71): at an odd address the sign-extended byte. -/
def State.loadHalfSigned (s : State) (addr : Word) : Word :=
  if addr.getLsbD 0 then s.loadByteSigned addr else sext ((s.memRead .half addr).setWidth 16)

/-- The size of the access of `LoadHalfSigned` (R75). -/
def signedHalfSize (addr : Word) : AccessSize := if addr.getLsbD 0 then .byte else .half

/-- The size of an instruction fetch (R66). -/
def fetchSize (thumb : Bool) : AccessSize := if thumb then .half else .word

/-! ## Parts of a step (R170 to R173, R530) -/

/-- `PipelineAdvance()` (R171): the slots move up and one sequential fetch fills `slot[1]`. -/
def State.pipelineAdvance (s : State) : State :=
  let size := fetchSize s.cpsr.t
  let s1 := s.noteRead size (s.reg 15) true false
  { s1 with slot0 := s.slot1, slot1 := s.memRead size (s.reg 15) }

/-- The instruction that `slot[0]` holds. -/
def State.currentInstr (s : State) : Instr := decodeFetched s.cpsr.t s.slot0

/-- Sequential advance (R172). -/
def State.advancePc (s : State) (w : Word) : State := s.setReg 15 (s.reg 15 + w)

/-- `Reload()` (R173). -/
def State.reload (s : State) : State :=
  let t := s.cpsr.t
  let w := widthOf t
  let size := fetchSize t
  let target := alignWidth t (s.reg 15)
  let s1 := (s.noteRead size target false false).noteRead size (target + w) true false
  let s2 := { s1 with slot0 := s.memRead size target, slot1 := s.memRead size (target + w), flush := false }
  s2.setReg 15 (target + 2 * w)

/-- Step 5 of R170. -/
def State.reloadIfFlush (s : State) : State := if s.flush then s.reload else s

/-- The fast interrupt is requested: the input exists and is raised (R42, R530). -/
def State.fiqRequest (s : State) : Bool := s.cfg.hasFiqLine && s.fiqLine

/-- The poll takes the fast interrupt (R530). -/
def State.takesFiq (s : State) : Bool := s.fiqRequest && !s.cpsr.f

/-- The poll takes the normal interrupt (R530). -/
def State.takesIrq (s : State) : Bool := !s.takesFiq && (s.pending != 0) && !s.cpsr.i

/-- The poll takes an interrupt. -/
def State.interrupted (s : State) : Bool := s.takesFiq || s.takesIrq

/-- A pending request clears the halted state, whatever the masks are (R541). -/
def State.wake (s : State) : State :=
  { s with halted := s.halted && !((s.pending != 0) || s.fiqRequest) }

/-- `InterruptPoll()` (R530). -/
def State.interruptPoll (s : State) : State :=
  let s1 := s.wake
  if s.takesFiq then s1.raisePlus4 .fiq
  else if s.takesIrq then
    let s2 := s1.raisePlus4 .irq
    if s.cfg.irqAckClears then { s2 with pending := 0 } else s2
  else s1

/-- The accesses of the step before are forgotten (assumption log 9). -/
def State.clearBus (s : State) : State := { s with bus := [] }

/-- Step 6 of R170: `cycles <- cycles + cycleCost(this step)`. -/
def State.charge (s : State) (kind : StepKind) (reloaded : Bool) : State :=
  { s with cycles := s.cycles +
      cycleCost s.cfg.cycleRule { kind := kind, reloaded := reloaded, bus := s.bus } }

/-- The end of a step that took an interrupt: steps 5 and 6 of R170. -/
def State.completeInterrupt (s : State) : State := s.reloadIfFlush.charge .interrupt s.flush

/-- The end of a halted step: step 6 of R170 (R542). -/
def State.completeHalted (s : State) : State := s.charge .halted false

/-- The multiplier operand `R[Rs]` of every multiply, the halfword-operand ones included (R266, R590); 0 for the
instructions that are no multiply. -/
def State.multiplierOperand (s : State) (i : Instr) : Word :=
  match i with
  | .mul _ _ _ _ rs => s.rop 8 rs
  | .mla _ _ _ _ rs _ => s.rop 8 rs
  | .umull _ _ _ _ _ rs => s.rop 8 rs
  | .umlal _ _ _ _ _ rs => s.rop 8 rs
  | .smull _ _ _ _ _ rs => s.rop 8 rs
  | .smlal _ _ _ _ _ rs => s.rop 8 rs
  | .smlaxy _ _ _ _ _ rs _ => s.rop 8 rs
  | .smlawy _ _ _ _ rs _ => s.rop 8 rs
  | .smulwy _ _ _ _ rs => s.rop 8 rs
  | .smlalxy _ _ _ _ _ _ rs => s.rop 8 rs
  | .smulxy _ _ _ _ _ rs => s.rop 8 rs
  | .tMul rd _ => s.reg ⟨rd.val, by omega⟩
  | _ => 0

/-- What the step of `s` executes, for its cost: a Thumb instruction always passes (R182). -/
def State.executedKind (s : State) : StepKind :=
  .executed s.currentInstr (s.cpsr.t || condPass (Cond.ofBits (s.slot0.extractLsb' 28 4)) s.cpsr)
    (s.multiplierOperand s.currentInstr)

/-- The end of a step that executed the instruction of `before`: the advance by the width the step began with,
or the reload, then the cycles (steps 4 to 6 of R170). -/
def State.completeInstr (t before : State) : State :=
  let u := if t.flush then t.reload else t.advancePc before.width
  u.charge before.executedKind t.flush

/-! ## Placing an instruction (assumption log 12) -/

/-- Stores an instruction of `nbits` bits at the address of the next instruction and in `slot[0]`, sets T by
`nbits`, and lets no interrupt or halt come before it. Where T changes, the address is aligned for the new
width and `slot[1]` is fetched anew. -/
def State.placeInstr (s : State) (nbits w : Nat) : State :=
  let thumb := decide (nbits = 16)
  let size := fetchSize thumb
  let next := alignWidth thumb s.instrAddr
  let word := if thumb then (BitVec.ofNat 16 w).setWidth 32 else BitVec.ofNat 32 w
  let s1 := { s with mem := s.mem.writeSized size next word, cpsr := { s.cpsr with t := thumb } }
  let s2 := { s1 with slot0 := word, flush := false, halted := false, pending := 0, fiqLine := false }
  if s.cpsr.t = thumb then s2
  else
    { s2.setReg 15 (next + 2 * widthOf thumb) with
      slot1 := s2.memRead size (next + widthOf thumb) }

end Sys2Proof.Machine
end

