-- ==== Sys2Proof/Machine/Operands.lean ====
section
/-! DEFINITION. The shifter (R200 to R204), the operand forms of data processing and MSR (R109, R376), and the
addressing forms of single and halfword transfers (R281, R285, R302). Operands are only read here. -/

namespace Sys2Proof.Machine

/-! ## The shifter -/

/-- What the shifter answers: the value and the carry. -/
structure Shifted where
  value : Word
  carry : Bool
deriving DecidableEq, Repr

/-- `Shift` in the immediate form (R201): 0 means 32 for LSR and ASR and RRX for ROR. -/
def shiftImmediate (type : ShiftType) (v : Word) (n : Nat) (c : Bool) : Shifted :=
  match type with
  | .lsl => if n = 0 then ⟨v, c⟩ else ⟨v <<< n, v.getLsbD (32 - n)⟩
  | .lsr => if n = 0 then ⟨0, v.msb⟩ else ⟨v >>> n, v.getLsbD (n - 1)⟩
  | .asr => if n = 0 then ⟨v.sshiftRight 31, v.msb⟩ else ⟨v.sshiftRight n, v.getLsbD (n - 1)⟩
  | .ror =>
    if n = 0 then ⟨(v >>> 1) ||| ((zext (BitVec.ofBool c)) <<< 31), v.getLsbD 0⟩
    else ⟨ror32 v n, v.getLsbD (n - 1)⟩

/-- `Shift` in the register form (R202), for amounts 0 to 255. -/
def shiftRegister (type : ShiftType) (v : Word) (n : Nat) (c : Bool) : Shifted :=
  if n = 0 then ⟨v, c⟩
  else
    match type with
    | .lsl =>
      if n < 32 then ⟨v <<< n, v.getLsbD (32 - n)⟩ else if n = 32 then ⟨0, v.getLsbD 0⟩ else ⟨0, false⟩
    | .lsr =>
      if n < 32 then ⟨v >>> n, v.getLsbD (n - 1)⟩ else if n = 32 then ⟨0, v.msb⟩ else ⟨0, false⟩
    | .asr => if n < 32 then ⟨v.sshiftRight n, v.getLsbD (n - 1)⟩ else ⟨v.sshiftRight 31, v.msb⟩
    | .ror => if n % 32 = 0 then ⟨v, v.msb⟩ else ⟨ror32 v (n % 32), v.getLsbD (n % 32 - 1)⟩

/-! ## Data processing and MSR -/

/-- The rotated 8-bit immediate (R109 (a), R376). -/
def rotatedImmediate (rot : BitVec 4) (imm8 : BitVec 8) : Word := ror32 (zext imm8) (2 * rot.toNat)

/-- The offset k at which a data-processing instruction reads r15 (R175, R207). -/
def State.dpOffset (s : State) : Operand2 → Word
  | .imm .. => 8
  | .shiftImm .. => 8
  | .shiftReg .. => pcOffsetBytes s.cfg.pcRegShiftOffset

/-- Operand 2, with the shifter's carry (R109, R204). -/
def State.operand2 (s : State) (op2 : Operand2) : Shifted :=
  let k := s.dpOffset op2
  match op2 with
  | .imm rot imm8 =>
    let v := rotatedImmediate rot imm8
    ⟨v, if rot = 0 then s.cpsr.c else v.msb⟩
  | .shiftImm type imm5 rm => shiftImmediate type (s.rop k rm) imm5.toNat s.cpsr.c
  | .shiftReg type rs rm =>
    shiftRegister type (s.rop k rm) ((s.rop k rs).extractLsb' 0 8).toNat s.cpsr.c

/-- The first operand of a data-processing instruction (R207). -/
def State.operand1 (s : State) (rn : Reg) (op2 : Operand2) : Word := s.rop (s.dpOffset op2) rn

/-- The operand of MSR (R376). -/
def State.msrOperand (s : State) : MsrOperand → Word
  | .imm rot imm8 => rotatedImmediate rot imm8
  | .reg rm => s.rop 8 rm

/-! ## Addressing -/

/-- A transfer's address, the value a writeback gives the base, and whether it is written (R282, R302). -/
structure TransferAddress where
  addr : Word
  newBase : Word
  writeback : Bool
deriving DecidableEq, Repr

/-- The offset of a single transfer (R281, R285); the shifter's carry is discarded. -/
def State.singleOffset (s : State) : Offset → Word
  | .imm imm12 => zext imm12
  | .shifted type imm5 rm => (shiftImmediate type (s.rop 8 rm) imm5.toNat s.cpsr.c).value

/-- The offset of a halfword transfer: no shift (R302). -/
def State.halfOffset (s : State) : HalfOffset → Word
  | .imm imm8 => zext imm8
  | .reg rm => s.rop 8 rm

/-- The address forms of R283: pre-indexed accesses at base plus or minus offset, post-indexed at the base. -/
def transferAddress (base offset : Word) (up : Bool) (mode : IndexMode) : TransferAddress :=
  let offaddr := if up then base + offset else base - offset
  match mode with
  | .offset => { addr := offaddr, newBase := offaddr, writeback := false }
  | .preIndexed => { addr := offaddr, newBase := offaddr, writeback := true }
  | .postIndexed => { addr := base, newBase := offaddr, writeback := true }

/-- The addressing of LDR, STR, LDRB, STRB and the T forms (R282). -/
def State.singleAddress (s : State) (mode : IndexMode) (up : Bool) (rn : Reg) (off : Offset) : TransferAddress :=
  transferAddress (s.rop 8 rn) (s.singleOffset off) up mode

/-- The addressing of the halfword, signed and doubleword transfers (R302). -/
def State.halfAddress (s : State) (mode : IndexMode) (up : Bool) (rn : Reg) (off : HalfOffset) : TransferAddress :=
  transferAddress (s.rop 8 rn) (s.halfOffset off) up mode

/-- `WriteBase` when the form writes back (R282). -/
def State.writeBase (s : State) (ta : TransferAddress) (rn : Reg) : State :=
  if ta.writeback then s.writeReg rn ta.newBase else s

/-- A register as store data: r15 reads A plus `PC_STORE_OFFSET` (R175). -/
def State.storeData (s : State) (r : Reg) : Word := s.rop (pcOffsetBytes s.cfg.pcStoreOffset) r

/-! ## Multiple transfers (R331, R332) -/

/-- The sixteen registers in ascending order. -/
def allRegs : List Reg := [0, 1, 2, 3, 4, 5, 6, 7, 8, 9, 10, 11, 12, 13, 14, 15]

/-- The registers of a list field, ascending; an empty list transfers r15 alone (R332, R340). -/
def blockRegs (list : BitVec 16) : List Reg :=
  if list = 0 then [15] else allRegs.filter fun r => list.getLsbD r.val

/-- The number n of R331: the count of the list, and 16 for an empty one (R340). -/
def blockCount (list : BitVec 16) : Nat := if list = 0 then 16 else (blockRegs list).length

/-- The lowest address of a multiple transfer (R331). -/
def blockStart (mode : BlockMode) (base : Word) (n : Nat) : Word :=
  let size := BitVec.ofNat 32 (4 * n)
  match mode with
  | .ia => base
  | .ib => base + 4
  | .da => base - size + 4
  | .db => base - size

/-- The written-back value of a multiple transfer (R331). -/
def blockBase (mode : BlockMode) (base : Word) (n : Nat) : Word :=
  let size := BitVec.ofNat 32 (4 * n)
  match mode with
  | .ia => base + size
  | .ib => base + size
  | .da => base - size
  | .db => base - size

/-- `StoredBase` (R335): the value STM stores for a base register that is in its list and written back. -/
def storedBase (rule : StoredBaseRule) (rn : Reg) (list : BitVec 16) (base wbval : Word) : Word :=
  match rule with
  | .original => base
  | .arm7tdmi => if (blockRegs list).head? = some rn then base else wbval

end Sys2Proof.Machine
end

