-- ==== Sys2Proof/Machine/BlockTransfer.lean ====
section
/-! DEFINITION. LDM and STM, `ExecuteBlock` (R330 to R345), which the Thumb multiple transfers share (R485, R486,
R490, R491). All accesses are made, in ascending address order, before any register is written (R332). -/

namespace Sys2Proof.Machine

/-- The user-bank form transfers user-mode registers, any other the current mode's (R337, R338). -/
def State.transferMode (s : State) (user : Bool) : BitVec 5 := if user then modeUsr else s.cpsr.m

/-- The value STM stores for a register (R332): r15 reads A plus `PC_STORE_OFFSET`, a written-back base follows
R335, any other register is read as the transfer's mode sees it. DEDUCED (assumption log 24): a listed base that is
not written back is such a register, `RegMode(m, i)` by R332 and R338, also in the user-bank form of a mode that banks
it, where the sentence of R335 on W = 0 ("the stored value is `base` in every case") would store another value. -/
def State.blockValue (s : State) (user wb : Bool) (rn : Reg) (list : BitVec 16) (base wbval : Word) (i : Reg) :
    Word :=
  if i = 15 then s.pcRead (pcOffsetBytes s.cfg.pcStoreOffset)
  else if i = rn ∧ wb then storedBase s.cfg.stmBaseInList rn list base wbval
  else s.regMode (s.transferMode user) i

/-- The stores of a multiple transfer, ascending; only the first access is non-sequential (R333). -/
def storeWords (s : State) (addr : Word) (sequential : Bool) : List Word → State
  | [] => s
  | v :: rest => storeWords (s.memWrite .word addr v sequential false) (addr + 4) true rest

/-- The records of the loads of a multiple transfer. -/
def noteReads (s : State) (addr : Word) (sequential : Bool) : List Reg → State
  | [] => s
  | _ :: rest => noteReads (s.noteRead .word addr sequential false) (addr + 4) true rest

/-- The loaded words d[i], with their registers (R332). -/
def State.loadedWords (s : State) (addr : Word) : List Reg → List (Reg × Word)
  | [] => []
  | r :: rest => (r, s.memRead .word addr) :: s.loadedWords (addr + 4) rest

/-- The loaded registers other than r15, written as mode m sees them (R332). -/
def writeLoaded (m : BitVec 5) (s : State) : List (Reg × Word) → State
  | [] => s
  | d :: rest => writeLoaded m (if d.1 = 15 then s else s.setRegMode m d.1 d.2) rest

/-- The writeback of a multiple transfer, always to the current mode's Rn (R332, R341). -/
def State.blockWriteback (s : State) (wb : Bool) (rn : Reg) (wbval : Word) : State :=
  if wb then s.writeReg rn wbval else s

/-- `ExecuteBlock` with L = 0 (R332). -/
def State.storeMultiple (s : State) (mode : BlockMode) (user wb : Bool) (rn : Reg) (list : BitVec 16) : State :=
  let base := s.rop 8 rn
  let start := blockStart mode base (blockCount list)
  let wbval := blockBase mode base (blockCount list)
  let words := (blockRegs list).map (s.blockValue user wb rn list base wbval)
  (storeWords s start false words).blockWriteback wb rn wbval

/-- r15 of a loaded list: with S the exception return (R339), else a branch (R336). -/
def State.loadPcLast (s : State) (sb : Bool) (words : List (Reg × Word)) : State :=
  match words.find? fun d => d.1 = 15 with
  | none => s
  | some d => if sb then s.exceptionReturn d.2 else s.setPc d.2

/-- `ExecuteBlock` with L = 1 (R332): the writeback comes before the loaded values (R334). S without r15 in the
list field selects the user bank, S with r15 transferred the exception return (R337; assumption log 8). -/
def State.loadMultiple (s : State) (mode : BlockMode) (sb wb : Bool) (rn : Reg) (list : BitVec 16) : State :=
  let base := s.rop 8 rn
  let start := blockStart mode base (blockCount list)
  let wbval := blockBase mode base (blockCount list)
  let regs := blockRegs list
  let words := s.loadedWords start regs
  let m := s.transferMode (sb && !list.getLsbD 15)
  let s1 := (noteReads s start false regs).blockWriteback wb rn wbval
  (writeLoaded m s1 words).loadPcLast sb words

/-- LDM (R342). -/
def execLdm (c : Cond) (mode : BlockMode) (sb wb : Bool) (rn : Reg) (list : BitVec 16) (s : State) : Outcome :=
  .next (s.whenCond c fun s => s.loadMultiple mode sb wb rn list)

/-- STM (R343): S selects the user bank (R337). -/
def execStm (c : Cond) (mode : BlockMode) (sb wb : Bool) (rn : Reg) (list : BitVec 16) (s : State) : Outcome :=
  .next (s.whenCond c fun s => s.storeMultiple mode sb wb rn list)

end Sys2Proof.Machine
end

