-- ==== Sys2Proof/Machine/Branch.lean ====
section
/-! DEFINITION. The ARM set's branches and the instructions that raise an exception (R390 to R411). -/

namespace Sys2Proof.Machine

/-- A branch to a value whose bit 0 selects the instruction set (R392); the reload aligns by the new T. -/
def State.branchExchange (s : State) (v : Word) : State :=
  (s.setCpsr { s.cpsr with t := v.getLsbD 0 }).setPc (v &&& 0xFFFFFFFE#32)

/-- The target of B and BL: A + 8 plus the word offset (R390). -/
def State.branchTarget (s : State) (imm24 : BitVec 24) : Word := s.pcRead 8 + (sext imm24 <<< 2)

/-- B (R390). -/
def execB (c : Cond) (imm24 : BitVec 24) (s : State) : Outcome :=
  .next (s.whenCond c fun s => s.setPc (s.branchTarget imm24))

/-- BL (R391). -/
def execBl (c : Cond) (imm24 : BitVec 24) (s : State) : Outcome :=
  .next (s.whenCond c fun s => (s.setReg 14 (s.instrAddr + 4)).setPc (s.branchTarget imm24))

/-- BX (R392). -/
def execBx (c : Cond) (rm : Reg) (s : State) : Outcome :=
  .next (s.whenCond c fun s => s.branchExchange (s.rop 8 rm))

/-- BLX (R393): Rm is read before r14 is written. -/
def execBlx (c : Cond) (rm : Reg) (s : State) : Outcome :=
  .next (s.whenCond c fun s => (s.setReg 14 (s.instrAddr + 4)).branchExchange (s.rop 8 rm))

/-- SWI (R400): the comment is ignored. -/
def execSwi (c : Cond) (_imm24 : BitVec 24) (s : State) : Outcome :=
  .next (s.whenCond c fun s => s.raiseNext .supervisorCall)

/-- BKPT (R401): the comment is ignored. -/
def execBkpt (c : Cond) (_imm16 : BitVec 16) (s : State) : Outcome :=
  .next (s.whenCond c fun s => s.raisePlus4 .prefetchAbort)

/-- UNDEFINED (R410). -/
def execUndefined (c : Cond) (_bits : BitVec 28) (s : State) : Outcome :=
  .next (s.whenCond c fun s => s.raiseNext .undefinedInstruction)

end Sys2Proof.Machine
end

