-- ==== Sys2Proof/Machine/DataProcessing.lean ====
section
/-! DEFINITION. The sixteen ARM data-processing instructions (R207 to R231) over two shared operations: one for
the logic and one for the arithmetic flag rule. Operands, CPSR.C included, are read before anything is
written (R207). -/

namespace Sys2Proof.Machine

/-- The write of a data-processing result (R207): r15 with S = 1 is the exception return (R212), with S = 0 a
branch (R211); any other register takes the result, and the flags follow when S = 1. -/
def State.dpWrite (s : State) (sb : Bool) (rd : Reg) (result : Word) (flags : Psr) : State :=
  if rd = 15 then (if sb then s.exceptionReturn result else s.setPc result)
  else if sb then (s.setReg rd result).setCpsr flags
  else s.setReg rd result

/-- A logic operation that writes Rd (R209). -/
def State.dpLogic (s : State) (sb : Bool) (rd rn : Reg) (op2 : Operand2) (op : Word → Word → Word) : State :=
  let b := s.operand2 op2
  let r := op (s.operand1 rn op2) b.value
  s.dpWrite sb rd r (s.cpsr.setLogic r b.carry)

/-- An arithmetic operation that writes Rd (R210); `op` is given CPSR.C as it was. -/
def State.dpArith (s : State) (sb : Bool) (rd rn : Reg) (op2 : Operand2) (op : Word → Word → Bool → Sum) : State :=
  let a := op (s.operand1 rn op2) (s.operand2 op2).value s.cpsr.c
  s.dpWrite sb rd a.result (s.cpsr.setArith a)

/-- MOV and MVN: no first operand (R226, R229). -/
def State.dpMove (s : State) (sb : Bool) (rd : Reg) (op2 : Operand2) (op : Word → Word) : State :=
  let b := s.operand2 op2
  s.dpWrite sb rd (op b.value) (s.cpsr.setLogic (op b.value) b.carry)

/-- TST and TEQ: only flags (R221, R222, R230). -/
def State.dpLogicTest (s : State) (rn : Reg) (op2 : Operand2) (op : Word → Word → Word) : State :=
  let b := s.operand2 op2
  s.setCpsr (s.cpsr.setLogic (op (s.operand1 rn op2) b.value) b.carry)

/-- CMP and CMN: only flags (R223, R224, R230). -/
def State.dpArithTest (s : State) (rn : Reg) (op2 : Operand2) (op : Word → Word → Bool → Sum) : State :=
  s.setCpsr (s.cpsr.setArith (op (s.operand1 rn op2) (s.operand2 op2).value s.cpsr.c))

/-- The ALU primitive ORN (R227): it has no encoding, and no instruction calls it (assumption log 19). -/
def aluOrn (a b : Word) : Word := a ||| ~~~b

/-- AND (R213). -/
def execAnd (c : Cond) (sb : Bool) (rd rn : Reg) (op2 : Operand2) (s : State) : Outcome :=
  .next (s.whenCond c fun s => s.dpLogic sb rd rn op2 fun a b => a &&& b)

/-- EOR (R214). -/
def execEor (c : Cond) (sb : Bool) (rd rn : Reg) (op2 : Operand2) (s : State) : Outcome :=
  .next (s.whenCond c fun s => s.dpLogic sb rd rn op2 fun a b => a ^^^ b)

/-- SUB (R215). -/
def execSub (c : Cond) (sb : Bool) (rd rn : Reg) (op2 : Operand2) (s : State) : Outcome :=
  .next (s.whenCond c fun s => s.dpArith sb rd rn op2 fun a b _ => addWithCarry a (~~~b) true)

/-- RSB (R216). -/
def execRsb (c : Cond) (sb : Bool) (rd rn : Reg) (op2 : Operand2) (s : State) : Outcome :=
  .next (s.whenCond c fun s => s.dpArith sb rd rn op2 fun a b _ => addWithCarry b (~~~a) true)

/-- ADD (R217). -/
def execAdd (c : Cond) (sb : Bool) (rd rn : Reg) (op2 : Operand2) (s : State) : Outcome :=
  .next (s.whenCond c fun s => s.dpArith sb rd rn op2 fun a b _ => addWithCarry a b false)

/-- ADC (R218). -/
def execAdc (c : Cond) (sb : Bool) (rd rn : Reg) (op2 : Operand2) (s : State) : Outcome :=
  .next (s.whenCond c fun s => s.dpArith sb rd rn op2 fun a b cin => addWithCarry a b cin)

/-- SBC (R219). -/
def execSbc (c : Cond) (sb : Bool) (rd rn : Reg) (op2 : Operand2) (s : State) : Outcome :=
  .next (s.whenCond c fun s => s.dpArith sb rd rn op2 fun a b cin => addWithCarry a (~~~b) cin)

/-- RSC (R220). -/
def execRsc (c : Cond) (sb : Bool) (rd rn : Reg) (op2 : Operand2) (s : State) : Outcome :=
  .next (s.whenCond c fun s => s.dpArith sb rd rn op2 fun a b cin => addWithCarry b (~~~a) cin)

/-- TST (R221). -/
def execTst (c : Cond) (rn : Reg) (op2 : Operand2) (s : State) : Outcome :=
  .next (s.whenCond c fun s => s.dpLogicTest rn op2 fun a b => a &&& b)

/-- TEQ (R222). -/
def execTeq (c : Cond) (rn : Reg) (op2 : Operand2) (s : State) : Outcome :=
  .next (s.whenCond c fun s => s.dpLogicTest rn op2 fun a b => a ^^^ b)

/-- CMP (R223). -/
def execCmp (c : Cond) (rn : Reg) (op2 : Operand2) (s : State) : Outcome :=
  .next (s.whenCond c fun s => s.dpArithTest rn op2 fun a b _ => addWithCarry a (~~~b) true)

/-- CMN (R224). -/
def execCmn (c : Cond) (rn : Reg) (op2 : Operand2) (s : State) : Outcome :=
  .next (s.whenCond c fun s => s.dpArithTest rn op2 fun a b _ => addWithCarry a b false)

/-- ORR (R225). -/
def execOrr (c : Cond) (sb : Bool) (rd rn : Reg) (op2 : Operand2) (s : State) : Outcome :=
  .next (s.whenCond c fun s => s.dpLogic sb rd rn op2 fun a b => a ||| b)

/-- MOV (R226). -/
def execMov (c : Cond) (sb : Bool) (rd : Reg) (op2 : Operand2) (s : State) : Outcome :=
  .next (s.whenCond c fun s => s.dpMove sb rd op2 fun b => b)

/-- BIC (R228). -/
def execBic (c : Cond) (sb : Bool) (rd rn : Reg) (op2 : Operand2) (s : State) : Outcome :=
  .next (s.whenCond c fun s => s.dpLogic sb rd rn op2 fun a b => a &&& ~~~b)

/-- MVN (R229). -/
def execMvn (c : Cond) (sb : Bool) (rd : Reg) (op2 : Operand2) (s : State) : Outcome :=
  .next (s.whenCond c fun s => s.dpMove sb rd op2 fun b => ~~~b)

end Sys2Proof.Machine
end

