-- ==== Sys2Proof/Machine/LoadStore.lean ====
section
/-! DEFINITION. LDR, STR, LDRB, STRB, their user-forced forms, SWP and SWPB (R280 to R301, R315, R316), over one
load and one store operation: operands are read, the one access is made, the base is written back, a load
writes Rd last (R298). -/

namespace Sys2Proof.Machine

/-- A load of `data` by an access of this size (R282): the loaded value wins over the writeback (R286). -/
def State.finishLoad (s : State) (size : AccessSize) (ta : TransferAddress) (forced : Bool) (rd rn : Reg)
    (data : Word) : State :=
  ((s.noteRead size ta.addr false forced).writeBase ta rn).writeReg rd data

/-- A store of `v` by an access of this size (R282): the data was read before the writeback (R287). -/
def State.finishStore (s : State) (size : AccessSize) (ta : TransferAddress) (forced : Bool) (rn : Reg)
    (v : Word) : State :=
  (s.memWrite size ta.addr v false forced).writeBase ta rn

/-- A word load at a transfer address (R290). -/
def State.loadWordTo (s : State) (ta : TransferAddress) (forced : Bool) (rd rn : Reg) : State :=
  s.finishLoad .word ta forced rd rn (s.loadWord ta.addr)

/-- A byte load at a transfer address (R292). -/
def State.loadByteTo (s : State) (ta : TransferAddress) (forced : Bool) (rd rn : Reg) : State :=
  s.finishLoad .byte ta forced rd rn (s.loadByte ta.addr)

/-- LDR (R290). -/
def execLdr (c : Cond) (mode : IndexMode) (up : Bool) (rd rn : Reg) (off : Offset) (s : State) : Outcome :=
  .next (s.whenCond c fun s => s.loadWordTo (s.singleAddress mode up rn off) false rd rn)

/-- STR (R291). -/
def execStr (c : Cond) (mode : IndexMode) (up : Bool) (rd rn : Reg) (off : Offset) (s : State) : Outcome :=
  .next (s.whenCond c fun s =>
    s.finishStore .word (s.singleAddress mode up rn off) false rn (s.storeData rd))

/-- LDRB (R292). -/
def execLdrb (c : Cond) (mode : IndexMode) (up : Bool) (rd rn : Reg) (off : Offset) (s : State) : Outcome :=
  .next (s.whenCond c fun s => s.loadByteTo (s.singleAddress mode up rn off) false rd rn)

/-- STRB (R293). -/
def execStrb (c : Cond) (mode : IndexMode) (up : Bool) (rd rn : Reg) (off : Offset) (s : State) : Outcome :=
  .next (s.whenCond c fun s =>
    s.finishStore .byte (s.singleAddress mode up rn off) false rn (s.storeData rd))

/-- LDRT (R294, R289). -/
def execLdrt (c : Cond) (up : Bool) (rd rn : Reg) (off : Offset) (s : State) : Outcome :=
  .next (s.whenCond c fun s => s.loadWordTo (s.singleAddress .postIndexed up rn off) true rd rn)

/-- STRT (R295, R289). -/
def execStrt (c : Cond) (up : Bool) (rd rn : Reg) (off : Offset) (s : State) : Outcome :=
  .next (s.whenCond c fun s =>
    s.finishStore .word (s.singleAddress .postIndexed up rn off) true rn (s.storeData rd))

/-- LDRBT (R296, R289). -/
def execLdrbt (c : Cond) (up : Bool) (rd rn : Reg) (off : Offset) (s : State) : Outcome :=
  .next (s.whenCond c fun s => s.loadByteTo (s.singleAddress .postIndexed up rn off) true rd rn)

/-- STRBT (R297, R289). -/
def execStrbt (c : Cond) (up : Bool) (rd rn : Reg) (off : Offset) (s : State) : Outcome :=
  .next (s.whenCond c fun s =>
    s.finishStore .byte (s.singleAddress .postIndexed up rn off) true rn (s.storeData rd))

/-- A swap: a read, then a write at the same address, then Rd (R315, R316). -/
def State.swap (s : State) (size : AccessSize) (rd : Reg) (addr v data : Word) : State :=
  ((s.noteRead size addr false false).memWrite size addr v false false).writeReg rd data

/-- SWP (R315). -/
def execSwp (c : Cond) (rd rm rn : Reg) (s : State) : Outcome :=
  .next (s.whenCond c fun s =>
    s.swap .word rd (s.rop 8 rn) (s.storeData rm) (s.loadWord (s.rop 8 rn)))

/-- SWPB (R316), with r15 as SWP (assumption log 22). -/
def execSwpb (c : Cond) (rd rm rn : Reg) (s : State) : Outcome :=
  .next (s.whenCond c fun s =>
    s.swap .byte rd (s.rop 8 rn) (s.storeData rm) (s.loadByte (s.rop 8 rn)))

end Sys2Proof.Machine
end

