-- ==== Sys2Proof/Machine/HalfTransfer.lean ====
section
/-! DEFINITION. LDRH, STRH, LDRSB, LDRSH, LDRD, STRD (R302 to R312). LDRD and STRD make two word accesses, the
lower address first, and never one of eight bytes (R62). -/

namespace Sys2Proof.Machine

/-- An unsigned halfword load at a transfer address (R305). -/
def State.loadHalfTo (s : State) (ta : TransferAddress) (rd rn : Reg) : State :=
  s.finishLoad .half ta false rd rn (s.loadHalf ta.addr)

/-- A signed byte load at a transfer address (R307). -/
def State.loadByteSignedTo (s : State) (ta : TransferAddress) (rd rn : Reg) : State :=
  s.finishLoad .byte ta false rd rn (s.loadByteSigned ta.addr)

/-- A signed halfword load at a transfer address (R308); at an odd address the access is a byte (R75). -/
def State.loadHalfSignedTo (s : State) (ta : TransferAddress) (rd rn : Reg) : State :=
  s.finishLoad (signedHalfSize ta.addr) ta false rd rn (s.loadHalfSigned ta.addr)

/-- The two loads of LDRD (R310). -/
def State.loadPair (s : State) (ta : TransferAddress) (rd rn : Reg) : State :=
  let d0 := s.memRead .word ta.addr
  let d1 := s.memRead .word (ta.addr + 4)
  let s1 := (s.noteRead .word ta.addr false false).noteRead .word (ta.addr + 4) true false
  ((s1.writeBase ta rn).writeReg rd d0).writeReg (rd + 1) d1

/-- The two stores of STRD (R311); both registers are read before the writeback. -/
def State.storePair (s : State) (ta : TransferAddress) (rd rn : Reg) : State :=
  let v0 := s.storeData rd
  let v1 := s.storeData (rd + 1)
  ((s.memWrite .word ta.addr v0 false false).memWrite .word (ta.addr + 4) v1 true false).writeBase ta rn

/-- LDRH (R305). -/
def execLdrh (c : Cond) (mode : IndexMode) (up : Bool) (rd rn : Reg) (off : HalfOffset) (s : State) : Outcome :=
  .next (s.whenCond c fun s => s.loadHalfTo (s.halfAddress mode up rn off) rd rn)

/-- STRH (R306). -/
def execStrh (c : Cond) (mode : IndexMode) (up : Bool) (rd rn : Reg) (off : HalfOffset) (s : State) : Outcome :=
  .next (s.whenCond c fun s =>
    s.finishStore .half (s.halfAddress mode up rn off) false rn (s.storeData rd))

/-- LDRSB (R307). -/
def execLdrsb (c : Cond) (mode : IndexMode) (up : Bool) (rd rn : Reg) (off : HalfOffset) (s : State) : Outcome :=
  .next (s.whenCond c fun s => s.loadByteSignedTo (s.halfAddress mode up rn off) rd rn)

/-- LDRSH (R308). -/
def execLdrsh (c : Cond) (mode : IndexMode) (up : Bool) (rd rn : Reg) (off : HalfOffset) (s : State) : Outcome :=
  .next (s.whenCond c fun s => s.loadHalfSignedTo (s.halfAddress mode up rn off) rd rn)

/-- LDRD (R310). -/
def execLdrd (c : Cond) (mode : IndexMode) (up : Bool) (rd rn : Reg) (off : HalfOffset) (s : State) : Outcome :=
  .next (s.whenCond c fun s => s.loadPair (s.halfAddress mode up rn off) rd rn)

/-- STRD (R311). -/
def execStrd (c : Cond) (mode : IndexMode) (up : Bool) (rd rn : Reg) (off : HalfOffset) (s : State) : Outcome :=
  .next (s.whenCond c fun s => s.storePair (s.halfAddress mode up rn off) rd rn)

end Sys2Proof.Machine
end

