-- ==== Sys2Proof/Machine/Multiply.lean ====
section
/-! DEFINITION. The multiplies (R250 to R264). Products are exact; every operand is read before a register is
written; r15 as an operand reads A + 8 and as a destination is a branch that copies no SPSR (R264). -/

namespace Sys2Proof.Machine

/-- C, and for the long forms V, after a flag-setting multiply: unchanged (R263), or free bits where the
configuration asks for U10's treatment (assumption log 6, 14). -/
def State.multiplyCarry (s : State) (long : Bool) : State :=
  match s.cfg.multiplyFlags with
  | .unchanged => s
  | .anyValue =>
    { s with
      cpsr := { s.cpsr with c := Config.freeBit s.freeIdx,
                            v := if long then Config.freeBit (s.freeIdx + 1) else s.cpsr.v }
      freeIdx := s.freeIdx + 2 }

/-- The result and flags of MUL and MLA (R252, R253, R263). -/
def State.multiplyResult (s : State) (sb : Bool) (rd : Reg) (r : Word) : State :=
  let s1 := s.writeReg rd r
  if sb then (s1.setCpsr (s1.cpsr.setNZ r)).multiplyCarry false else s1

/-- A 64-bit result into RdLo, then RdHi (R264 (d)). -/
def State.writePair (s : State) (rdLo rdHi : Reg) (r : BitVec 64) : State :=
  (s.writeReg rdLo (r.extractLsb' 0 32)).writeReg rdHi (r.extractLsb' 32 32)

/-- The result and flags of the long multiplies (R254 to R257, R263). -/
def State.multiplyLongResult (s : State) (sb : Bool) (rdLo rdHi : Reg) (r : BitVec 64) : State :=
  let s1 := s.writePair rdLo rdHi r
  if sb then (s1.setCpsr (s1.cpsr.setNZ64 r)).multiplyCarry true else s1

/-- The exact unsigned product, in 64 bits (R254). -/
def unsignedProduct (a b : Word) : BitVec 64 := BitVec.ofNat 64 (a.toNat * b.toNat)

/-- The exact signed product, in 64 bits (R256). -/
def signedProduct (a b : Word) : BitVec 64 := BitVec.ofInt 64 (a.toInt * b.toInt)

/-- `R[RdHi] : R[RdLo]` (R255). -/
def State.accumulator (s : State) (rdLo rdHi : Reg) : BitVec 64 := s.rop 8 rdHi ++ s.rop 8 rdLo

/-- `floor(p / 2^16)` of the 48-bit product (R259, R260). -/
def wideProduct (a : Word) (h : BitVec 16) : Int := (a.toInt * h.toInt) / 2 ^ 16

/-- The exact 16 x 16 product (R258). -/
def halfProduct (a b : BitVec 16) : Int := a.toInt * b.toInt

/-- The accumulate of SMLAxy and SMLAWy: the sum wraps, Q is set on signed overflow (R258, R259). -/
def State.accumulateQ (s : State) (rd rn : Reg) (p : Int) : State :=
  let sum := p + (s.rop 8 rn).toInt
  let s1 := s.writeReg rd (BitVec.ofInt 32 sum)
  s1.setCpsr (s1.cpsr.orQ (overflowsSigned32 sum))

/-- MUL (R252). -/
def execMul (c : Cond) (sb : Bool) (rd rm rs : Reg) (s : State) : Outcome :=
  .next (s.whenCond c fun s => s.multiplyResult sb rd (s.rop 8 rm * s.rop 8 rs))

/-- MLA (R253). -/
def execMla (c : Cond) (sb : Bool) (rd rm rs rn : Reg) (s : State) : Outcome :=
  .next (s.whenCond c fun s => s.multiplyResult sb rd (s.rop 8 rm * s.rop 8 rs + s.rop 8 rn))

/-- UMULL (R254). -/
def execUmull (c : Cond) (sb : Bool) (rdLo rdHi rm rs : Reg) (s : State) : Outcome :=
  .next (s.whenCond c fun s => s.multiplyLongResult sb rdLo rdHi (unsignedProduct (s.rop 8 rm) (s.rop 8 rs)))

/-- UMLAL (R255). -/
def execUmlal (c : Cond) (sb : Bool) (rdLo rdHi rm rs : Reg) (s : State) : Outcome :=
  .next (s.whenCond c fun s =>
    s.multiplyLongResult sb rdLo rdHi
      (unsignedProduct (s.rop 8 rm) (s.rop 8 rs) + s.accumulator rdLo rdHi))

/-- SMULL (R256). -/
def execSmull (c : Cond) (sb : Bool) (rdLo rdHi rm rs : Reg) (s : State) : Outcome :=
  .next (s.whenCond c fun s => s.multiplyLongResult sb rdLo rdHi (signedProduct (s.rop 8 rm) (s.rop 8 rs)))

/-- SMLAL (R257). -/
def execSmlal (c : Cond) (sb : Bool) (rdLo rdHi rm rs : Reg) (s : State) : Outcome :=
  .next (s.whenCond c fun s =>
    s.multiplyLongResult sb rdLo rdHi
      (signedProduct (s.rop 8 rm) (s.rop 8 rs) + s.accumulator rdLo rdHi))

/-- SMLAxy (R258). -/
def execSmlaxy (c : Cond) (x y : HalfSel) (rd rm rs rn : Reg) (s : State) : Outcome :=
  .next (s.whenCond c fun s =>
    s.accumulateQ rd rn (halfProduct (halfOf (s.rop 8 rm) x) (halfOf (s.rop 8 rs) y)))

/-- SMLAWy (R259). -/
def execSmlawy (c : Cond) (y : HalfSel) (rd rm rs rn : Reg) (s : State) : Outcome :=
  .next (s.whenCond c fun s => s.accumulateQ rd rn (wideProduct (s.rop 8 rm) (halfOf (s.rop 8 rs) y)))

/-- SMULWy (R260). -/
def execSmulwy (c : Cond) (y : HalfSel) (rd rm rs : Reg) (s : State) : Outcome :=
  .next (s.whenCond c fun s =>
    s.writeReg rd (BitVec.ofInt 32 (wideProduct (s.rop 8 rm) (halfOf (s.rop 8 rs) y))))

/-- SMLALxy (R261). -/
def execSmlalxy (c : Cond) (x y : HalfSel) (rdLo rdHi rm rs : Reg) (s : State) : Outcome :=
  .next (s.whenCond c fun s =>
    s.writePair rdLo rdHi
      (s.accumulator rdLo rdHi +
        BitVec.ofInt 64 (halfProduct (halfOf (s.rop 8 rm) x) (halfOf (s.rop 8 rs) y))))

/-- SMULxy (R262). -/
def execSmulxy (c : Cond) (x y : HalfSel) (rd rm rs : Reg) (s : State) : Outcome :=
  .next (s.whenCond c fun s =>
    s.writeReg rd (BitVec.ofInt 32 (halfProduct (halfOf (s.rop 8 rm) x) (halfOf (s.rop 8 rs) y))))

end Sys2Proof.Machine
end

