-- ==== Sys2Proof/Machine/Saturating.lean ====
section
/-! DEFINITION. QADD, QSUB, QDADD, QDSUB (R360 to R368): clamped signed sums that set Q and never clear it. -/

namespace Sys2Proof.Machine

/-- The clamped result into Rd, and Q set if anything was clamped (R361, R366). -/
def State.saturate (s : State) (rd : Reg) (v : Int) (clamped : Bool) : State :=
  let r := signedSat32 v
  let s1 := s.writeReg rd r.1
  s1.setCpsr (s1.cpsr.orQ (clamped || r.2))

/-- The clamped doubling of the D forms (R364). -/
def doubled (v : Word) : Word × Bool := signedSat32 (2 * v.toInt)

/-- QADD (R362). -/
def execQadd (c : Cond) (rd rm rn : Reg) (s : State) : Outcome :=
  .next (s.whenCond c fun s => s.saturate rd ((s.rop 8 rm).toInt + (s.rop 8 rn).toInt) false)

/-- QSUB (R363). -/
def execQsub (c : Cond) (rd rm rn : Reg) (s : State) : Outcome :=
  .next (s.whenCond c fun s => s.saturate rd ((s.rop 8 rm).toInt - (s.rop 8 rn).toInt) false)

/-- QDADD (R364). -/
def execQdadd (c : Cond) (rd rm rn : Reg) (s : State) : Outcome :=
  .next (s.whenCond c fun s =>
    s.saturate rd ((s.rop 8 rm).toInt + (doubled (s.rop 8 rn)).1.toInt) (doubled (s.rop 8 rn)).2)

/-- QDSUB (R365). -/
def execQdsub (c : Cond) (rd rm rn : Reg) (s : State) : Outcome :=
  .next (s.whenCond c fun s =>
    s.saturate rd ((s.rop 8 rm).toInt - (doubled (s.rop 8 rn)).1.toInt) (doubled (s.rop 8 rn)).2)

end Sys2Proof.Machine
end

