-- ==== Sys2Proof/Machine/StatusRegister.lean ====
section
/-! DEFINITION. MRS and MSR (R375 to R379). A status word is held as fields, so `mask` of R376 appears as the
choice, field by field, of the operand's bits: `f` selects N Z C V Q, `c` selects I F T M, `s` and `x` select
reserved bits only. -/

namespace Sys2Proof.Machine

/-- The flag bits 31:27 of `new`, the rest of `p` (mask 0xF8000000). -/
def Psr.withFlagsOf (p new : Psr) : Psr := { p with n := new.n, z := new.z, c := new.c, v := new.v, q := new.q }

/-- The control bits 7, 6 and 4:0 of `new`, the rest of `p`: bit 5 is not among them (mask 0x000000DF). -/
def Psr.withControlOf (p new : Psr) : Psr := { p with i := new.i, f := new.f, m := new.m }

/-- The control bits 7:0 of `new`, T included, the rest of `p` (mask 0x000000FF). -/
def Psr.withControlAndT (p new : Psr) : Psr := { p with i := new.i, f := new.f, t := new.t, m := new.m }

/-- The word MRS reads (R375): CPSR, or the SPSR, or CPSR where the mode has none (R34). -/
def State.mrsValue (s : State) (src : PsrSel) : Word :=
  match src with
  | .cpsr => packPsr s.cpsr
  | .spsr => packPsr (s.spsr.getD s.cpsr)

/-- MSR to CPSR (R377): the control field is written in a privileged mode only, by a mode switch and a refetch
from the next instruction, whether or not the mode changes. -/
def State.msrCpsr (s : State) (fields : PsrFields) (operand : Psr) : State :=
  let flags := if fields.f then s.cpsr.withFlagsOf operand else s.cpsr
  if fields.c && isPrivileged s.cpsr.m then
    let next := s.instrAddr + 4
    let new := flags.withControlOf operand
    ((s.switchMode new.m).setCpsr new).setPc next
  else s.setCpsr flags

/-- MSR to the SPSR of the current mode (R378); without one nothing happens (R34). -/
def State.msrSpsr (s : State) (fields : PsrFields) (operand : Psr) : State :=
  match s.spsr with
  | none => s
  | some p =>
    let p1 := if fields.f then p.withFlagsOf operand else p
    s.setSpsrOf (bankOf s.cpsr.m) (if fields.c then p1.withControlAndT operand else p1)

/-- MRS (R375). -/
def execMrs (c : Cond) (src : PsrSel) (rd : Reg) (s : State) : Outcome :=
  .next (s.whenCond c fun s => s.writeReg rd (s.mrsValue src))

/-- MSR to CPSR (R377). -/
def execMsrCpsr (c : Cond) (fields : PsrFields) (src : MsrOperand) (s : State) : Outcome :=
  .next (s.whenCond c fun s => s.msrCpsr fields (unpackPsr (s.msrOperand src)))

/-- MSR to SPSR (R378). -/
def execMsrSpsr (c : Cond) (fields : PsrFields) (src : MsrOperand) (s : State) : Outcome :=
  .next (s.whenCond c fun s => s.msrSpsr fields (unpackPsr (s.msrOperand src)))

end Sys2Proof.Machine
end

