-- ==== Sys2Proof/Machine/ThumbAlu.lean ====
section
/-! DEFINITION. Thumb formats 1 to 4 and the hi-register operations of format 5 (R420 to R454): the primitives of
the ARM set under Thumb operands (R420). Formats 1 to 4 always write flags (R421). -/

namespace Sys2Proof.Machine

/-- `R[r]` of a three-bit field. -/
def State.low (s : State) (r : LowReg) : Word := s.reg (lowReg r)

/-- A logic result with its shifter carry: Rd, N, Z, C (R421). -/
def State.thumbLogic (s : State) (rd : LowReg) (r : Word) (carry : Bool) : State :=
  (s.setReg (lowReg rd) r).setCpsr (s.cpsr.setLogic r carry)

/-- An arithmetic result: Rd, N, Z, C, V (R421). -/
def State.thumbArith (s : State) (rd : LowReg) (a : Sum) : State :=
  (s.setReg (lowReg rd) a.result).setCpsr (s.cpsr.setArith a)

/-- A shift by an immediate (R422 to R424). -/
def State.thumbShiftImm (s : State) (type : ShiftType) (rd rs : LowReg) (imm5 : BitVec 5) : State :=
  let b := shiftImmediate type (s.low rs) imm5.toNat s.cpsr.c
  s.thumbLogic rd b.value b.carry

/-- A shift of Rd by the low byte of Rs (R435 to R437, R440). -/
def State.thumbShiftReg (s : State) (type : ShiftType) (rd rs : LowReg) : State :=
  let b := shiftRegister type (s.low rd) ((s.low rs).extractLsb' 0 8).toNat s.cpsr.c
  s.thumbLogic rd b.value b.carry

/-- LSL (immediate), format 1 (R422). -/
def execTLslImm (rd rs : LowReg) (imm5 : BitVec 5) (s : State) : Outcome :=
  .next (s.thumbShiftImm .lsl rd rs imm5)

/-- LSR (immediate), format 1 (R423). -/
def execTLsrImm (rd rs : LowReg) (imm5 : BitVec 5) (s : State) : Outcome :=
  .next (s.thumbShiftImm .lsr rd rs imm5)

/-- ASR (immediate), format 1 (R424). -/
def execTAsrImm (rd rs : LowReg) (imm5 : BitVec 5) (s : State) : Outcome :=
  .next (s.thumbShiftImm .asr rd rs imm5)

/-- ADD (register), format 2 (R425). -/
def execTAddReg (rd rs rn : LowReg) (s : State) : Outcome :=
  .next (s.thumbArith rd (addWithCarry (s.low rs) (s.low rn) false))

/-- SUB (register), format 2 (R426). -/
def execTSubReg (rd rs rn : LowReg) (s : State) : Outcome :=
  .next (s.thumbArith rd (addWithCarry (s.low rs) (~~~(s.low rn)) true))

/-- ADD (3-bit immediate), format 2 (R427). -/
def execTAddImm3 (rd rs : LowReg) (imm3 : BitVec 3) (s : State) : Outcome :=
  .next (s.thumbArith rd (addWithCarry (s.low rs) (zext imm3) false))

/-- SUB (3-bit immediate), format 2 (R428). -/
def execTSubImm3 (rd rs : LowReg) (imm3 : BitVec 3) (s : State) : Outcome :=
  .next (s.thumbArith rd (addWithCarry (s.low rs) (~~~(zext imm3)) true))

/-- MOV (immediate), format 3: C and V unchanged (R429). -/
def execTMovImm (rd : LowReg) (imm8 : BitVec 8) (s : State) : Outcome :=
  .next (s.thumbLogic rd (zext imm8) s.cpsr.c)

/-- CMP (immediate), format 3 (R430). -/
def execTCmpImm (rd : LowReg) (imm8 : BitVec 8) (s : State) : Outcome :=
  .next (s.setCpsr (s.cpsr.setArith (addWithCarry (s.low rd) (~~~(zext imm8)) true)))

/-- ADD (8-bit immediate), format 3 (R431). -/
def execTAddImm8 (rd : LowReg) (imm8 : BitVec 8) (s : State) : Outcome :=
  .next (s.thumbArith rd (addWithCarry (s.low rd) (zext imm8) false))

/-- SUB (8-bit immediate), format 3 (R432). -/
def execTSubImm8 (rd : LowReg) (imm8 : BitVec 8) (s : State) : Outcome :=
  .next (s.thumbArith rd (addWithCarry (s.low rd) (~~~(zext imm8)) true))

/-- AND, format 4 (R433). -/
def execTAnd (rd rs : LowReg) (s : State) : Outcome :=
  .next (s.thumbLogic rd (s.low rd &&& s.low rs) s.cpsr.c)

/-- EOR, format 4 (R434). -/
def execTEor (rd rs : LowReg) (s : State) : Outcome :=
  .next (s.thumbLogic rd (s.low rd ^^^ s.low rs) s.cpsr.c)

/-- LSL (register), format 4 (R435). -/
def execTLslReg (rd rs : LowReg) (s : State) : Outcome :=
  .next (s.thumbShiftReg .lsl rd rs)

/-- LSR (register), format 4 (R436). -/
def execTLsrReg (rd rs : LowReg) (s : State) : Outcome :=
  .next (s.thumbShiftReg .lsr rd rs)

/-- ASR (register), format 4 (R437). -/
def execTAsrReg (rd rs : LowReg) (s : State) : Outcome :=
  .next (s.thumbShiftReg .asr rd rs)

/-- ADC, format 4 (R438). -/
def execTAdc (rd rs : LowReg) (s : State) : Outcome :=
  .next (s.thumbArith rd (addWithCarry (s.low rd) (s.low rs) s.cpsr.c))

/-- SBC, format 4 (R439). -/
def execTSbc (rd rs : LowReg) (s : State) : Outcome :=
  .next (s.thumbArith rd (addWithCarry (s.low rd) (~~~(s.low rs)) s.cpsr.c))

/-- ROR (register), format 4 (R440). -/
def execTRorReg (rd rs : LowReg) (s : State) : Outcome :=
  .next (s.thumbShiftReg .ror rd rs)

/-- TST, format 4 (R441). -/
def execTTst (rd rs : LowReg) (s : State) : Outcome :=
  .next (s.setCpsr (s.cpsr.setNZ (s.low rd &&& s.low rs)))

/-- NEG, format 4 (R442). -/
def execTNeg (rd rs : LowReg) (s : State) : Outcome :=
  .next (s.thumbArith rd (addWithCarry 0 (~~~(s.low rs)) true))

/-- CMP (register), format 4 (R443). -/
def execTCmpReg (rd rs : LowReg) (s : State) : Outcome :=
  .next (s.setCpsr (s.cpsr.setArith (addWithCarry (s.low rd) (~~~(s.low rs)) true)))

/-- CMN, format 4 (R444). -/
def execTCmn (rd rs : LowReg) (s : State) : Outcome :=
  .next (s.setCpsr (s.cpsr.setArith (addWithCarry (s.low rd) (s.low rs) false)))

/-- ORR, format 4 (R445). -/
def execTOrr (rd rs : LowReg) (s : State) : Outcome :=
  .next (s.thumbLogic rd (s.low rd ||| s.low rs) s.cpsr.c)

/-- MUL, format 4: MULS Rd, Rs, Rd (R446). -/
def execTMul (rd rs : LowReg) (s : State) : Outcome :=
  .next (s.multiplyResult true (lowReg rd) (s.low rd * s.low rs))

/-- BIC, format 4 (R447). -/
def execTBic (rd rs : LowReg) (s : State) : Outcome :=
  .next (s.thumbLogic rd (s.low rd &&& ~~~(s.low rs)) s.cpsr.c)

/-- MVN, format 4 (R448). -/
def execTMvn (rd rs : LowReg) (s : State) : Outcome :=
  .next (s.thumbLogic rd (~~~(s.low rs)) s.cpsr.c)

/-- ADD (hi register), format 5: no flags (R452). -/
def execTAddHi (rd rs : Reg) (s : State) : Outcome :=
  .next (s.writeReg rd (s.rop 4 rd + s.rop 4 rs))

/-- CMP (hi register), format 5 (R453). -/
def execTCmpHi (rd rs : Reg) (s : State) : Outcome :=
  .next (s.setCpsr (s.cpsr.setArith (addWithCarry (s.rop 4 rd) (~~~(s.rop 4 rs)) true)))

/-- MOV (hi register), format 5: no flags (R454). -/
def execTMovHi (rd rs : Reg) (s : State) : Outcome :=
  .next (s.writeReg rd (s.rop 4 rs))

end Sys2Proof.Machine
end

