-- ==== Sys2Proof/Machine/ThumbBranch.lean ====
section
/-! DEFINITION. Thumb branches and exceptions: BX and BLX of format 5 and formats 16 to 19 (R455, R456, R495 to
R516). -/

namespace Sys2Proof.Machine

/-- The link value of Thumb BLX and of the BL low half: (A + 2) OR 1 (R456, R511). -/
def State.thumbLink (s : State) : Word := (s.instrAddr + 2) ||| 1

/-- A Thumb branch target: A + 4 plus a halfword offset (R495, R497). -/
def State.thumbTarget (s : State) (offset : Word) : Word := s.pcRead 4 + (offset <<< 1)

/-- The halfword after the executing one is the low half of a long branch: `NextInstr[15:11]` is 11111 (R510). -/
def State.nextIsBlLow (s : State) : Bool := s.slot0.extractLsb' 11 5 == 0b11111#5

/-- BX (R455). -/
def execTBx (rs : Reg) (s : State) : Outcome :=
  .next (s.branchExchange (s.rop 4 rs))

/-- BLX (R456): Rs is read before r14 is written. -/
def execTBlx (rs : Reg) (s : State) : Outcome :=
  .next ((s.setReg 14 s.thumbLink).branchExchange (s.rop 4 rs))

/-- B (conditional), format 16 (R495). -/
def execTBCond (c : Cond) (soff8 : BitVec 8) (s : State) : Outcome :=
  .next (s.whenCond c fun s => s.setPc (s.thumbTarget (sext soff8)))

/-- SWI, format 17 (R496): the comment is ignored. -/
def execTSwi (_imm8 : BitVec 8) (s : State) : Outcome :=
  .next (s.raiseNext .supervisorCall)

/-- B (unconditional), format 18 (R497). -/
def execTB (off11 : BitVec 11) (s : State) : Outcome :=
  .next (s.setPc (s.thumbTarget (sext off11)))

/-- BKPT (R498): the comment is ignored. -/
def execTBkpt (_imm8 : BitVec 8) (s : State) : Outcome :=
  .next (s.raisePlus4 .prefetchAbort)

/-- BL, high half, format 19 (R510): a branch too when no low half follows. -/
def execTBlHigh (off11 : BitVec 11) (s : State) : Outcome :=
  let v := s.pcRead 4 + (sext off11 <<< 12)
  let s1 := s.setReg 14 v
  .next (if s.nextIsBlLow then s1 else s1.setPc v)

/-- BL, low half, format 19 (R511): r14 is read before it is written. -/
def execTBlLow (off11 : BitVec 11) (s : State) : Outcome :=
  let t := s.reg 14 + (zext off11 <<< 1)
  .next ((s.setReg 14 s.thumbLink).setPc t)

/-- UNDEFINED (R516). -/
def execTUndefined (_half : Half) (s : State) : Outcome :=
  .next (s.raiseNext .undefinedInstruction)

end Sys2Proof.Machine
end

