-- ==== Sys2Proof/Machine/ThumbTransfer.lean ====
section
/-! DEFINITION. Thumb loads, stores, address arithmetic and multiple transfers, formats 6 to 15 (R458 to R491),
over the load, store and block operations of the ARM set. The single transfers never write their base back. -/

namespace Sys2Proof.Machine

/-- A transfer at an address, without writeback. -/
def plainAddress (addr : Word) : TransferAddress := { addr := addr, newBase := addr, writeback := false }

/-- A store of Rd at an address. -/
def State.thumbStore (s : State) (size : AccessSize) (addr : Word) (rd : LowReg) : State :=
  s.finishStore size (plainAddress addr) false 0 (s.low rd)

/-- A word load of Rd. -/
def State.thumbLoadWord (s : State) (addr : Word) (rd : LowReg) : State :=
  s.loadWordTo (plainAddress addr) false (lowReg rd) 0

/-- A byte load of Rd. -/
def State.thumbLoadByte (s : State) (addr : Word) (rd : LowReg) : State :=
  s.loadByteTo (plainAddress addr) false (lowReg rd) 0

/-- A halfword load of Rd. -/
def State.thumbLoadHalf (s : State) (addr : Word) (rd : LowReg) : State :=
  s.loadHalfTo (plainAddress addr) (lowReg rd) 0

/-- `Align(PCread(4), 4)` (R175, R458). -/
def State.alignedPc (s : State) : Word := align4 (s.pcRead 4)

/-- Base plus a 5-bit immediate scaled by the access size (R470 to R475). -/
def State.scaledImm5 (s : State) (rb : LowReg) (imm5 : BitVec 5) (shift : Nat) : Word :=
  s.low rb + (zext imm5 <<< shift)

/-- r13 plus an 8-bit immediate scaled by 4 (R476, R477, R479). -/
def State.spOffset (s : State) (imm8 : BitVec 8) : Word := s.reg 13 + (zext imm8 <<< 2)

/-- The list of PUSH, with r14 for the R bit (R485). -/
def pushList (r : Bool) (list : BitVec 8) : BitVec 16 := BitVec.ofBool false ++ BitVec.ofBool r ++ 0#6 ++ list

/-- The list of POP, with r15 for the R bit (R486). -/
def popList (r : Bool) (list : BitVec 8) : BitVec 16 := BitVec.ofBool r ++ 0#7 ++ list

/-- LDR (PC-relative), format 6 (R458). -/
def execTLdrPc (rd : LowReg) (imm8 : BitVec 8) (s : State) : Outcome :=
  .next (s.thumbLoadWord (s.alignedPc + (zext imm8 <<< 2)) rd)

/-- STR (register offset), format 7 (R460). -/
def execTStrReg (rd rb ro : LowReg) (s : State) : Outcome :=
  .next (s.thumbStore .word (s.low rb + s.low ro) rd)

/-- STRB (register offset), format 7 (R461). -/
def execTStrbReg (rd rb ro : LowReg) (s : State) : Outcome :=
  .next (s.thumbStore .byte (s.low rb + s.low ro) rd)

/-- LDR (register offset), format 7 (R462). -/
def execTLdrReg (rd rb ro : LowReg) (s : State) : Outcome :=
  .next (s.thumbLoadWord (s.low rb + s.low ro) rd)

/-- LDRB (register offset), format 7 (R463). -/
def execTLdrbReg (rd rb ro : LowReg) (s : State) : Outcome :=
  .next (s.thumbLoadByte (s.low rb + s.low ro) rd)

/-- STRH (register offset), format 8 (R464). -/
def execTStrhReg (rd rb ro : LowReg) (s : State) : Outcome :=
  .next (s.thumbStore .half (s.low rb + s.low ro) rd)

/-- LDSB (register offset), format 8 (R465). -/
def execTLdsbReg (rd rb ro : LowReg) (s : State) : Outcome :=
  .next (s.loadByteSignedTo (plainAddress (s.low rb + s.low ro)) (lowReg rd) 0)

/-- LDRH (register offset), format 8 (R466). -/
def execTLdrhReg (rd rb ro : LowReg) (s : State) : Outcome :=
  .next (s.thumbLoadHalf (s.low rb + s.low ro) rd)

/-- LDSH (register offset), format 8 (R467). -/
def execTLdshReg (rd rb ro : LowReg) (s : State) : Outcome :=
  .next (s.loadHalfSignedTo (plainAddress (s.low rb + s.low ro)) (lowReg rd) 0)

/-- STR (immediate offset), format 9 (R470). -/
def execTStrImm (rd rb : LowReg) (imm5 : BitVec 5) (s : State) : Outcome :=
  .next (s.thumbStore .word (s.scaledImm5 rb imm5 2) rd)

/-- LDR (immediate offset), format 9 (R471). -/
def execTLdrImm (rd rb : LowReg) (imm5 : BitVec 5) (s : State) : Outcome :=
  .next (s.thumbLoadWord (s.scaledImm5 rb imm5 2) rd)

/-- STRB (immediate offset), format 9 (R472). -/
def execTStrbImm (rd rb : LowReg) (imm5 : BitVec 5) (s : State) : Outcome :=
  .next (s.thumbStore .byte (s.scaledImm5 rb imm5 0) rd)

/-- LDRB (immediate offset), format 9 (R473). -/
def execTLdrbImm (rd rb : LowReg) (imm5 : BitVec 5) (s : State) : Outcome :=
  .next (s.thumbLoadByte (s.scaledImm5 rb imm5 0) rd)

/-- STRH (immediate offset), format 10 (R474). -/
def execTStrhImm (rd rb : LowReg) (imm5 : BitVec 5) (s : State) : Outcome :=
  .next (s.thumbStore .half (s.scaledImm5 rb imm5 1) rd)

/-- LDRH (immediate offset), format 10 (R475). -/
def execTLdrhImm (rd rb : LowReg) (imm5 : BitVec 5) (s : State) : Outcome :=
  .next (s.thumbLoadHalf (s.scaledImm5 rb imm5 1) rd)

/-- STR (SP-relative), format 11 (R476). -/
def execTStrSp (rd : LowReg) (imm8 : BitVec 8) (s : State) : Outcome :=
  .next (s.thumbStore .word (s.spOffset imm8) rd)

/-- LDR (SP-relative), format 11 (R477). -/
def execTLdrSp (rd : LowReg) (imm8 : BitVec 8) (s : State) : Outcome :=
  .next (s.thumbLoadWord (s.spOffset imm8) rd)

/-- ADD (PC-relative address), format 12 (R478). -/
def execTAddPc (rd : LowReg) (imm8 : BitVec 8) (s : State) : Outcome :=
  .next (s.setReg (lowReg rd) (s.alignedPc + (zext imm8 <<< 2)))

/-- ADD (SP-relative address), format 12 (R479). -/
def execTAddSp (rd : LowReg) (imm8 : BitVec 8) (s : State) : Outcome :=
  .next (s.setReg (lowReg rd) (s.spOffset imm8))

/-- ADD to SP, format 13 (R480). -/
def execTAddSpImm (imm7 : BitVec 7) (s : State) : Outcome :=
  .next (s.setReg 13 (s.reg 13 + (zext imm7 <<< 2)))

/-- SUB from SP, format 13 (R481). -/
def execTSubSpImm (imm7 : BitVec 7) (s : State) : Outcome :=
  .next (s.setReg 13 (s.reg 13 - (zext imm7 <<< 2)))

/-- PUSH, format 14: STMDB r13! (R485). -/
def execTPush (r : Bool) (list : BitVec 8) (s : State) : Outcome :=
  .next (s.storeMultiple .db false true 13 (pushList r list))

/-- POP, format 14: LDMIA r13! (R486). -/
def execTPop (r : Bool) (list : BitVec 8) (s : State) : Outcome :=
  .next (s.loadMultiple .ia false true 13 (popList r list))

/-- STMIA, format 15 (R490). -/
def execTStmia (rb : LowReg) (list : BitVec 8) (s : State) : Outcome :=
  .next (s.storeMultiple .ia false true (lowReg rb) (list.setWidth 16))

/-- LDMIA, format 15 (R491). -/
def execTLdmia (rb : LowReg) (list : BitVec 8) (s : State) : Outcome :=
  .next (s.loadMultiple .ia false true (lowReg rb) (list.setWidth 16))

end Sys2Proof.Machine
end

