-- ==== Sys2Proof/Machine/Dispatch.lean ====
section
/-! DEFINITION. The meaning of every instruction, one arm per constructor: its effect while it executes, with
R[15] two instructions ahead (R175). The advance and the reload are the step's. -/

namespace Sys2Proof.Machine

def exec (i : Instr) (s : State) : Host.Outcome State Fault Refusal :=
  match i with
  -- ARM set: data processing (R108, R213 to R229)
  | .and c sb rd rn op2 => Sys2Proof.Machine.execAnd c sb rd rn op2 s
  | .eor c sb rd rn op2 => Sys2Proof.Machine.execEor c sb rd rn op2 s
  | .sub c sb rd rn op2 => Sys2Proof.Machine.execSub c sb rd rn op2 s
  | .rsb c sb rd rn op2 => Sys2Proof.Machine.execRsb c sb rd rn op2 s
  | .add c sb rd rn op2 => Sys2Proof.Machine.execAdd c sb rd rn op2 s
  | .adc c sb rd rn op2 => Sys2Proof.Machine.execAdc c sb rd rn op2 s
  | .sbc c sb rd rn op2 => Sys2Proof.Machine.execSbc c sb rd rn op2 s
  | .rsc c sb rd rn op2 => Sys2Proof.Machine.execRsc c sb rd rn op2 s
  | .tst c rn op2 => Sys2Proof.Machine.execTst c rn op2 s
  | .teq c rn op2 => Sys2Proof.Machine.execTeq c rn op2 s
  | .cmp c rn op2 => Sys2Proof.Machine.execCmp c rn op2 s
  | .cmn c rn op2 => Sys2Proof.Machine.execCmn c rn op2 s
  | .orr c sb rd rn op2 => Sys2Proof.Machine.execOrr c sb rd rn op2 s
  | .mov c sb rd op2 => Sys2Proof.Machine.execMov c sb rd op2 s
  | .bic c sb rd rn op2 => Sys2Proof.Machine.execBic c sb rd rn op2 s
  | .mvn c sb rd op2 => Sys2Proof.Machine.execMvn c sb rd op2 s
  -- ARM set: multiply (R110 to R112, R252 to R262)
  | .mul c sb rd rm rs => Sys2Proof.Machine.execMul c sb rd rm rs s
  | .mla c sb rd rm rs rn => Sys2Proof.Machine.execMla c sb rd rm rs rn s
  | .umull c sb rdLo rdHi rm rs => Sys2Proof.Machine.execUmull c sb rdLo rdHi rm rs s
  | .umlal c sb rdLo rdHi rm rs => Sys2Proof.Machine.execUmlal c sb rdLo rdHi rm rs s
  | .smull c sb rdLo rdHi rm rs => Sys2Proof.Machine.execSmull c sb rdLo rdHi rm rs s
  | .smlal c sb rdLo rdHi rm rs => Sys2Proof.Machine.execSmlal c sb rdLo rdHi rm rs s
  | .smlaxy c x y rd rm rs rn => Sys2Proof.Machine.execSmlaxy c x y rd rm rs rn s
  | .smlawy c y rd rm rs rn => Sys2Proof.Machine.execSmlawy c y rd rm rs rn s
  | .smulwy c y rd rm rs => Sys2Proof.Machine.execSmulwy c y rd rm rs s
  | .smlalxy c x y rdLo rdHi rm rs => Sys2Proof.Machine.execSmlalxy c x y rdLo rdHi rm rs s
  | .smulxy c x y rd rm rs => Sys2Proof.Machine.execSmulxy c x y rd rm rs s
  -- ARM set: saturating arithmetic (R113, R362 to R365)
  | .qadd c rd rm rn => Sys2Proof.Machine.execQadd c rd rm rn s
  | .qsub c rd rm rn => Sys2Proof.Machine.execQsub c rd rm rn s
  | .qdadd c rd rm rn => Sys2Proof.Machine.execQdadd c rd rm rn s
  | .qdsub c rd rm rn => Sys2Proof.Machine.execQdsub c rd rm rn s
  -- ARM set: single transfers (R116, R290 to R297); the T forms are always post-indexed
  | .ldr c mode up rd rn off => Sys2Proof.Machine.execLdr c mode up rd rn off s
  | .str c mode up rd rn off => Sys2Proof.Machine.execStr c mode up rd rn off s
  | .ldrb c mode up rd rn off => Sys2Proof.Machine.execLdrb c mode up rd rn off s
  | .strb c mode up rd rn off => Sys2Proof.Machine.execStrb c mode up rd rn off s
  | .ldrt c up rd rn off => Sys2Proof.Machine.execLdrt c up rd rn off s
  | .strt c up rd rn off => Sys2Proof.Machine.execStrt c up rd rn off s
  | .ldrbt c up rd rn off => Sys2Proof.Machine.execLdrbt c up rd rn off s
  | .strbt c up rd rn off => Sys2Proof.Machine.execStrbt c up rd rn off s
  -- ARM set: halfword, signed, doubleword (R115, R305 to R311), swap (R114, R315, R316)
  | .ldrh c mode up rd rn off => Sys2Proof.Machine.execLdrh c mode up rd rn off s
  | .strh c mode up rd rn off => Sys2Proof.Machine.execStrh c mode up rd rn off s
  | .ldrsb c mode up rd rn off => Sys2Proof.Machine.execLdrsb c mode up rd rn off s
  | .ldrsh c mode up rd rn off => Sys2Proof.Machine.execLdrsh c mode up rd rn off s
  | .ldrd c mode up rd rn off => Sys2Proof.Machine.execLdrd c mode up rd rn off s
  | .strd c mode up rd rn off => Sys2Proof.Machine.execStrd c mode up rd rn off s
  | .swp c rd rm rn => Sys2Proof.Machine.execSwp c rd rm rn s
  | .swpb c rd rm rn => Sys2Proof.Machine.execSwpb c rd rm rn s
  -- ARM set: multiple transfer (R117, R342, R343); `sb` is the S bit, `wb` the W bit
  | .ldm c mode sb wb rn list => Sys2Proof.Machine.execLdm c mode sb wb rn list s
  | .stm c mode sb wb rn list => Sys2Proof.Machine.execStm c mode sb wb rn list s
  -- ARM set: status registers (R120, R121, R375 to R378)
  | .mrs c src rd => Sys2Proof.Machine.execMrs c src rd s
  | .msrCpsr c fields src => Sys2Proof.Machine.execMsrCpsr c fields src s
  | .msrSpsr c fields src => Sys2Proof.Machine.execMsrSpsr c fields src s
  -- ARM set: branches and exceptions (R118, R119, R122 to R124, R390 to R410)
  | .b c imm24 => Sys2Proof.Machine.execB c imm24 s
  | .bl c imm24 => Sys2Proof.Machine.execBl c imm24 s
  | .bx c rm => Sys2Proof.Machine.execBx c rm s
  | .blx c rm => Sys2Proof.Machine.execBlx c rm s
  | .swi c imm24 => Sys2Proof.Machine.execSwi c imm24 s
  | .bkpt c imm16 => Sys2Proof.Machine.execBkpt c imm16 s
  | .undefined c bits => Sys2Proof.Machine.execUndefined c bits s
  -- Thumb set: formats 1 to 3 (R126 to R128, R422 to R432)
  | .tLslImm rd rs imm5 => Sys2Proof.Machine.execTLslImm rd rs imm5 s
  | .tLsrImm rd rs imm5 => Sys2Proof.Machine.execTLsrImm rd rs imm5 s
  | .tAsrImm rd rs imm5 => Sys2Proof.Machine.execTAsrImm rd rs imm5 s
  | .tAddReg rd rs rn => Sys2Proof.Machine.execTAddReg rd rs rn s
  | .tSubReg rd rs rn => Sys2Proof.Machine.execTSubReg rd rs rn s
  | .tAddImm3 rd rs imm3 => Sys2Proof.Machine.execTAddImm3 rd rs imm3 s
  | .tSubImm3 rd rs imm3 => Sys2Proof.Machine.execTSubImm3 rd rs imm3 s
  | .tMovImm rd imm8 => Sys2Proof.Machine.execTMovImm rd imm8 s
  | .tCmpImm rd imm8 => Sys2Proof.Machine.execTCmpImm rd imm8 s
  | .tAddImm8 rd imm8 => Sys2Proof.Machine.execTAddImm8 rd imm8 s
  | .tSubImm8 rd imm8 => Sys2Proof.Machine.execTSubImm8 rd imm8 s
  -- Thumb set: format 4 (R129, R433 to R448)
  | .tAnd rd rs => Sys2Proof.Machine.execTAnd rd rs s
  | .tEor rd rs => Sys2Proof.Machine.execTEor rd rs s
  | .tLslReg rd rs => Sys2Proof.Machine.execTLslReg rd rs s
  | .tLsrReg rd rs => Sys2Proof.Machine.execTLsrReg rd rs s
  | .tAsrReg rd rs => Sys2Proof.Machine.execTAsrReg rd rs s
  | .tAdc rd rs => Sys2Proof.Machine.execTAdc rd rs s
  | .tSbc rd rs => Sys2Proof.Machine.execTSbc rd rs s
  | .tRorReg rd rs => Sys2Proof.Machine.execTRorReg rd rs s
  | .tTst rd rs => Sys2Proof.Machine.execTTst rd rs s
  | .tNeg rd rs => Sys2Proof.Machine.execTNeg rd rs s
  | .tCmpReg rd rs => Sys2Proof.Machine.execTCmpReg rd rs s
  | .tCmn rd rs => Sys2Proof.Machine.execTCmn rd rs s
  | .tOrr rd rs => Sys2Proof.Machine.execTOrr rd rs s
  | .tMul rd rs => Sys2Proof.Machine.execTMul rd rs s
  | .tBic rd rs => Sys2Proof.Machine.execTBic rd rs s
  | .tMvn rd rs => Sys2Proof.Machine.execTMvn rd rs s
  -- Thumb set: format 5 (R130, R452 to R456)
  | .tAddHi rd rs => Sys2Proof.Machine.execTAddHi rd rs s
  | .tCmpHi rd rs => Sys2Proof.Machine.execTCmpHi rd rs s
  | .tMovHi rd rs => Sys2Proof.Machine.execTMovHi rd rs s
  | .tBx rs => Sys2Proof.Machine.execTBx rs s
  | .tBlx rs => Sys2Proof.Machine.execTBlx rs s
  -- Thumb set: formats 6 to 8 (R131 to R133, R458 to R467)
  | .tLdrPc rd imm8 => Sys2Proof.Machine.execTLdrPc rd imm8 s
  | .tStrReg rd rb ro => Sys2Proof.Machine.execTStrReg rd rb ro s
  | .tStrbReg rd rb ro => Sys2Proof.Machine.execTStrbReg rd rb ro s
  | .tLdrReg rd rb ro => Sys2Proof.Machine.execTLdrReg rd rb ro s
  | .tLdrbReg rd rb ro => Sys2Proof.Machine.execTLdrbReg rd rb ro s
  | .tStrhReg rd rb ro => Sys2Proof.Machine.execTStrhReg rd rb ro s
  | .tLdsbReg rd rb ro => Sys2Proof.Machine.execTLdsbReg rd rb ro s
  | .tLdrhReg rd rb ro => Sys2Proof.Machine.execTLdrhReg rd rb ro s
  | .tLdshReg rd rb ro => Sys2Proof.Machine.execTLdshReg rd rb ro s
  -- Thumb set: formats 9 to 13 (R134 to R138, R470 to R481)
  | .tStrImm rd rb imm5 => Sys2Proof.Machine.execTStrImm rd rb imm5 s
  | .tLdrImm rd rb imm5 => Sys2Proof.Machine.execTLdrImm rd rb imm5 s
  | .tStrbImm rd rb imm5 => Sys2Proof.Machine.execTStrbImm rd rb imm5 s
  | .tLdrbImm rd rb imm5 => Sys2Proof.Machine.execTLdrbImm rd rb imm5 s
  | .tStrhImm rd rb imm5 => Sys2Proof.Machine.execTStrhImm rd rb imm5 s
  | .tLdrhImm rd rb imm5 => Sys2Proof.Machine.execTLdrhImm rd rb imm5 s
  | .tStrSp rd imm8 => Sys2Proof.Machine.execTStrSp rd imm8 s
  | .tLdrSp rd imm8 => Sys2Proof.Machine.execTLdrSp rd imm8 s
  | .tAddPc rd imm8 => Sys2Proof.Machine.execTAddPc rd imm8 s
  | .tAddSp rd imm8 => Sys2Proof.Machine.execTAddSp rd imm8 s
  | .tAddSpImm imm7 => Sys2Proof.Machine.execTAddSpImm imm7 s
  | .tSubSpImm imm7 => Sys2Proof.Machine.execTSubSpImm imm7 s
  -- Thumb set: formats 14 and 15 (R139, R140, R485 to R491); `r` is the R bit
  | .tPush r list => Sys2Proof.Machine.execTPush r list s
  | .tPop r list => Sys2Proof.Machine.execTPop r list s
  | .tStmia rb list => Sys2Proof.Machine.execTStmia rb list s
  | .tLdmia rb list => Sys2Proof.Machine.execTLdmia rb list s
  -- Thumb set: branches and exceptions (R141 to R146, R495 to R516)
  | .tBCond c soff8 => Sys2Proof.Machine.execTBCond c soff8 s
  | .tSwi imm8 => Sys2Proof.Machine.execTSwi imm8 s
  | .tB off11 => Sys2Proof.Machine.execTB off11 s
  | .tBkpt imm8 => Sys2Proof.Machine.execTBkpt imm8 s
  | .tBlHigh off11 => Sys2Proof.Machine.execTBlHigh off11 s
  | .tBlLow off11 => Sys2Proof.Machine.execTBlLow off11 s
  | .tUndefined half => Sys2Proof.Machine.execTUndefined half s

end Sys2Proof.Machine
end

