-- ==== Sys2Proof/Machine/Step.lean ====
section
/-! DEFINITION. One step of the machine (R170), over the parts of Ops.lean; and the placing of an instruction
where the step takes its next one (assumption log 12). -/

namespace Sys2Proof.Machine

/-- The step of a state whose poll took no interrupt and which is not halted: the fetch, the instruction, the
advance or the reload, the cycles. -/
def executeStep (s : State) : Host.Outcome State Fault Refusal :=
  match exec s.currentInstr s.pipelineAdvance with
  | .next t => .next (t.completeInstr s)
  | .fault r => .fault r
  | .refused r => .refused r

/-- `step()` (R170). The list of Bus accesses starts empty. -/
def step (s : State) : Host.Outcome State Fault Refusal :=
  let s0 := s.clearBus
  let s1 := s0.interruptPoll
  if s0.interrupted then .next s1.completeInterrupt
  else if s1.halted then .next s1.completeHalted
  else executeStep s1

/-- `s` with an instruction of `nbits` bits stored where the step takes its next one: in memory at the address of
the next instruction and in `slot[0]`, with the T bit of its set, and with no interrupt or halt before it. -/
def State.withFetchWord (s : State) (nbits w : Nat) : State := s.placeInstr nbits w

end Sys2Proof.Machine
end

