-- ==== Sys2Proof/Machine/HostOps.lean ====
section
/-! DEFINITION. The operations of the outer loop and of the environment (R10, R565 to R568), which act between
steps (R11; assumption log 15). No one of them is part of `step`. -/

namespace Sys2Proof.Machine

/-- `reset()` (R560) at any step boundary: every field of the core at its reset value, the reload from address 0,
and memory, `pending` and `fiq_line` as they were (R562; assumption log 21). -/
def State.hostReset (s : State) : State :=
  let cleared : State :=
    { State.reset with
      cfg := s.cfg, mem := s.mem, pending := s.pending, fiqLine := s.fiqLine, freeIdx := s.freeIdx, bus := [] }
  (cleared.setPc 0).reload

/-- `requestInterrupt(mask)` (R567). -/
def State.requestInterrupt (s : State) (mask : Word) : State := { s with pending := s.pending ||| mask }

/-- The owner lowers request bits (R42). -/
def State.lowerInterrupt (s : State) (mask : Word) : State := { s with pending := s.pending &&& ~~~mask }

/-- `requestHalt()` (R540). -/
def State.requestHalt (s : State) : State := { s with halted := true }

/-- The fast-interrupt input (R42); without the input nothing changes. -/
def State.setFiqLine (s : State) (level : Bool) : State := { s with fiqLine := s.cfg.hasFiqLine && level }

/-- The owner of the Bus writes a byte between steps (R11). -/
def State.envStore (s : State) (a : Word) (b : Byte) : State := { s with mem := s.mem.write a.toNat b }

/-- Steps until the cycle counter reaches `target`, at most `fuel` of them. -/
def runUntil (target : Nat) : Nat → State → Host.Outcome State Fault Refusal
  | 0, s => .next s
  | fuel + 1, s =>
    if s.cycles < target then
      match step s with
      | .next t => runUntil target fuel t
      | .fault r => .fault r
      | .refused r => .refused r
    else .next s

/-- What `run` answers: the state it leaves, and the cycles actually spent (R566, R592). -/
structure RunAnswer where
  final : State
  spent : Nat
deriving DecidableEq, Repr

/-- `run(cycleBudget)` (R566): steps until the budget is consumed, and returns `cycles - start`. A step costs at least
one cycle, so the budget bounds the number of steps (assumption log 17). -/
def run (budget : Nat) (s : State) : Host.Outcome RunAnswer Fault Refusal :=
  match runUntil (s.cycles + budget) budget s with
  | .next t => .next { final := t, spent := t.cycles - s.cycles }
  | .fault r => .fault r
  | .refused r => .refused r

end Sys2Proof.Machine
end

