-- ==== Sys2Proof/Safety.lean ====
section
/-! DEFINITION. The terms of the statements: a step boundary as the spec describes it (R38 to R40), a step that
completes (R565), the classes of instructions that the whole-machine rules name, and what an instruction leaves
unchanged. -/

namespace Sys2Proof.Machine

/-! ## Boundaries and outcomes -/

/-- `R[15]` is a multiple of the instruction width (R40). -/
def State.pcAligned (s : State) : Bool := alignWidth s.cpsr.t (s.reg 15) == s.reg 15

/-- In Thumb state a slot holds a halfword, zero-extended (R37). -/
def State.slotsFit (s : State) : Bool :=
  !s.cpsr.t || ((s.slot0 >>> 16 == 0) && (s.slot1 >>> 16 == 0))

/-- The step-boundary invariant: no discard is outstanding (R38), the fetch address is aligned (R40), the slots
hold what their width allows (R37), memory is in its canonical form. -/
def State.boundary (s : State) : Prop :=
  s.flush = false ∧ s.pcAligned = true ∧ s.slotsFit = true ∧ s.mem.wf = true

/-- The outcome is a next state. -/
def completes (o : Outcome) : Prop := ∃ t, o = .next t

/-- The bytes of the next instruction, from its address up. -/
def State.nextBytes (s : State) : List Byte :=
  let a := s.instrAddr
  if s.cpsr.t then [s.mem.byteAt a, s.mem.byteAt (a + 1)]
  else [s.mem.byteAt a, s.mem.byteAt (a + 1), s.mem.byteAt (a + 2), s.mem.byteAt (a + 3)]

/-! ## Classes of instructions -/

/-- The condition field of an ARM instruction (R106). -/
def armCond : Instr → Option Cond
  | .and c .. | .eor c .. | .sub c .. | .rsb c .. | .add c .. | .adc c .. | .sbc c .. | .rsc c ..
  | .tst c .. | .teq c .. | .cmp c .. | .cmn c .. | .orr c .. | .mov c .. | .bic c .. | .mvn c ..
  | .mul c .. | .mla c .. | .umull c .. | .umlal c .. | .smull c .. | .smlal c ..
  | .smlaxy c .. | .smlawy c .. | .smulwy c .. | .smlalxy c .. | .smulxy c ..
  | .qadd c .. | .qsub c .. | .qdadd c .. | .qdsub c ..
  | .ldr c .. | .str c .. | .ldrb c .. | .strb c .. | .ldrt c .. | .strt c .. | .ldrbt c .. | .strbt c ..
  | .ldrh c .. | .strh c .. | .ldrsb c .. | .ldrsh c .. | .ldrd c .. | .strd c .. | .swp c .. | .swpb c ..
  | .ldm c .. | .stm c .. | .mrs c .. | .msrCpsr c .. | .msrSpsr c ..
  | .b c .. | .bl c .. | .bx c .. | .blx c .. | .swi c .. | .bkpt c .. | .undefined c .. => some c
  | _ => none

/-- The exception that an instruction is there to raise (R520). -/
def raisedBy : Instr → Option Exception
  | .swi .. | .tSwi .. => some .supervisorCall
  | .bkpt .. | .tBkpt .. => some .prefetchAbort
  | .undefined .. | .tUndefined .. => some .undefinedInstruction
  | _ => none

/-- The instructions that copy SPSR to CPSR (R374): data processing with S = 1 and destination r15, and LDM
with S that transfers r15. -/
def copiesSpsr : Instr → Bool
  | .and _ sb rd _ _ | .eor _ sb rd _ _ | .sub _ sb rd _ _ | .rsb _ sb rd _ _ | .add _ sb rd _ _
  | .adc _ sb rd _ _ | .sbc _ sb rd _ _ | .rsc _ sb rd _ _ | .orr _ sb rd _ _ | .bic _ sb rd _ _
  | .mov _ sb rd _ | .mvn _ sb rd _ => sb && rd == 15
  | .ldm _ _ sb _ _ list => sb && (list.getLsbD 15 || list == 0)
  | _ => false

/-- The instructions that branch with a change of instruction set (R392). -/
def exchanges : Instr → Bool
  | .bx .. | .blx .. | .tBx .. | .tBlx .. => true
  | _ => false

/-- The instructions that store to memory (R75). -/
def storesMemory : Instr → Bool
  | .str .. | .strb .. | .strt .. | .strbt .. | .strh .. | .strd .. | .swp .. | .swpb .. | .stm ..
  | .tStrReg .. | .tStrbReg .. | .tStrhReg .. | .tStrImm .. | .tStrbImm .. | .tStrhImm .. | .tStrSp ..
  | .tPush .. | .tStmia .. => true
  | _ => false

/-- MSR to CPSR with the flags field. -/
def writesFlagsByMsr : Instr → Bool
  | .msrCpsr _ fields _ => fields.f
  | _ => false

/-- LDM in the user-bank form (R337). -/
def loadsUserBank : Instr → Bool
  | .ldm _ _ sb _ _ list => sb && !list.getLsbD 15
  | _ => false

/-! ## What stays as it was -/

/-- The shadow banks. -/
def State.sameBanks (s t : State) : Prop :=
  t.bankUsr = s.bankUsr ∧ t.bankFiq = s.bankFiq ∧ t.bankIrq = s.bankIrq ∧ t.bankSvc = s.bankSvc ∧
    t.bankAbt = s.bankAbt ∧ t.bankUnd = s.bankUnd

/-- The saved status words. -/
def State.sameSpsrs (s t : State) : Prop :=
  t.spsrFiq = s.spsrFiq ∧ t.spsrIrq = s.spsrIrq ∧ t.spsrSvc = s.spsrSvc ∧ t.spsrAbt = s.spsrAbt ∧
    t.spsrUnd = s.spsrUnd

/-- The fields that only the step or the environment writes. -/
def State.sameRest (s t : State) : Prop :=
  t.cfg = s.cfg ∧ t.slot0 = s.slot0 ∧ t.slot1 = s.slot1 ∧ t.halted = s.halted ∧ t.cycles = s.cycles ∧
    t.pending = s.pending ∧ t.fiqLine = s.fiqLine

/-- All of the three. -/
def State.sameOther (s t : State) : Prop := s.sameBanks t ∧ s.sameSpsrs t ∧ s.sameRest t

/-- Every byte of memory. -/
def State.sameMemory (s t : State) : Prop := ∀ x : Word, t.mem.byteAt x = s.mem.byteAt x

/-! ## Exact arithmetic -/

/-- The integer fits a signed 32-bit word. -/
def fits32 (x : Int) : Bool := decide (-2 ^ 31 ≤ x) && decide (x ≤ 2 ^ 31 - 1)

/-- The integer clamped to the signed 32-bit range (R360). -/
def clamp32 (x : Int) : Int := max (-2 ^ 31) (min (2 ^ 31 - 1) x)

/-- The exact integers that QADD, QSUB, QDADD and QDSUB clamp, and whether anything was clamped (R362 to R365). -/
def doubleClamped (b : Word) : Int := clamp32 (2 * b.toInt)

/-- `s` after Rd takes `r` and, with S = 1, the four flags take these values. -/
def State.arithAnswer (s : State) (sb : Bool) (rd : Reg) (r : Word) (c v : Bool) : State :=
  { s with regs := s.regs.set rd r
           cpsr := if sb then { s.cpsr with n := r.msb, z := decide (r = 0), c := c, v := v } else s.cpsr }

/-- `s` after Rd takes `r` and, with S = 1, N, Z and C take their values; V as before. -/
def State.logicAnswer (s : State) (sb : Bool) (rd : Reg) (r : Word) (c : Bool) : State :=
  s.arithAnswer sb rd r c s.cpsr.v

/-- `s` with the four flags at these values. -/
def State.flagAnswer (s : State) (r : Word) (c v : Bool) : State :=
  { s with cpsr := { s.cpsr with n := r.msb, z := decide (r = 0), c := c, v := v } }

/-! ## Single transfers -/

/-- The address and the new base of a transfer: post-indexed at the base, else at the target (R283). -/
def transferAt (mode : IndexMode) (base target : Word) : Word := if mode = .postIndexed then base else target

/-- Base plus or minus offset (R281). -/
def transferTarget (up : Bool) (base offset : Word) : Word := if up then base + offset else base - offset

/-- What a load does (R282, R286, R298): Rd takes the data, the base its new value unless it is Rd, every other
register and CPSR stay, no byte of memory changes, one access is made. -/
def loadsTo (s t : State) (rd rn : Reg) (wb : Bool) (target data : Word) (access : BusAccess) : Prop :=
  t.reg rd = data ∧ (wb = true → rn ≠ rd → t.reg rn = target) ∧
    (∀ r, r ≠ rd → (r = rn → wb = false) → t.reg r = s.reg r) ∧
    t.flush = (s.flush || decide (rd = 15) || (wb && decide (rn = 15))) ∧ t.cpsr = s.cpsr ∧
    s.sameMemory t ∧ t.bus = s.bus ++ [access] ∧ s.sameOther t

/-- A byte of a store of `n` bytes of `v` at `a` (R64): the byte of `v` inside, the old byte outside. -/
def storedByte (m : Memory) (size : AccessSize) (a v x : Word) : Byte :=
  let d := (x - alignTo size a).toNat
  if d < sizeBytes size then v.extractLsb' (8 * d) 8 else m.byteAt x

/-- What a store does (R282, R287): the bytes at the aligned address take the value, every other byte stays, the
base takes its new value, every other register and CPSR stay, one access is made. -/
def storesTo (s t : State) (rn : Reg) (wb : Bool) (target : Word) (size : AccessSize) (a v : Word)
    (access : BusAccess) : Prop :=
  (∀ x : Word, t.mem.byteAt x = storedByte s.mem size a v x) ∧ (wb = true → t.reg rn = target) ∧
    (∀ r, (r = rn → wb = false) → t.reg r = s.reg r) ∧
    t.flush = (s.flush || (wb && decide (rn = 15))) ∧ t.cpsr = s.cpsr ∧ t.bus = s.bus ++ [access] ∧
    s.sameOther t

/-- The access that a read of this size at `a` puts on the Bus (R63, R65). -/
def State.readAccess (s : State) (size : AccessSize) (a : Word) (sequential forced : Bool) : BusAccess :=
  { write := false, addr := alignTo size a, size := size, sequential := sequential,
    user := forced || decide (s.cpsr.m = modeUsr), value := s.mem.readSized size a }

/-- The access that a write of this size at `a` puts on the Bus (R63, R65). -/
def State.writeAccess (s : State) (size : AccessSize) (a v : Word) (sequential forced : Bool) : BusAccess :=
  { write := true, addr := alignTo size a, size := size, sequential := sequential,
    user := forced || decide (s.cpsr.m = modeUsr), value := lowBytes size v }

/-! ## Answers with a branch -/

/-- `s` after `pc <- target` (R176). -/
def State.branchAnswer (s : State) (target : Word) : State :=
  { s with regs := s.regs.set 15 target, flush := true }

/-- `s` after the return of R212: with an SPSR the banks move and CPSR takes all of it, without one only the branch
is left. -/
def State.returnAnswer (s : State) (target : Word) : State :=
  match s.spsr with
  | none => s.branchAnswer target
  | some p => State.branchAnswer { s.switchMode p.m with cpsr := p } target

/-- `s` after a destination register takes `v`: r15 as a branch (R176), any other register the value. -/
def State.writeAnswer (s : State) (rd : Reg) (v : Word) : State :=
  if rd = 15 then s.branchAnswer v else { s with regs := s.regs.set rd v }

/-- `s` after a branch to `v` whose bit 0 selects the instruction set (R392). -/
def State.exchangeAnswer (s : State) (v : Word) : State :=
  State.branchAnswer { s with cpsr := { s.cpsr with t := v.getLsbD 0 } } (v &&& 0xFFFFFFFE#32)

/-- `t` with any positive number of cycles added, as the step that ended in `t` may cost (R590). -/
def steppedTo (s t : State) : Prop := ∃ n, 1 ≤ n ∧ step s = .next { t with cycles := t.cycles + n }

/-- `k` steps lead from `s` to `t`. -/
def stepsTo : Nat → State → State → Prop
  | 0, s, t => t = s
  | k + 1, s, t => ∃ u, step s = .next u ∧ stepsTo k u t

/-! ## Multiplies -/

/-- The flags a multiply leaves (R263): N and Z with S = 1; C, and V of the long forms, as the configuration says
(log 6); Q, I, F, T and M as before. -/
def multiplyFlags (s t : State) (sb long n z : Bool) : Prop :=
  t.cpsr.n = (if sb then n else s.cpsr.n) ∧ t.cpsr.z = (if sb then z else s.cpsr.z) ∧
    (sb = false ∨ s.cfg.multiplyFlags = .unchanged → t.cpsr.c = s.cpsr.c) ∧
    (sb = false ∨ long = false ∨ s.cfg.multiplyFlags = .unchanged → t.cpsr.v = s.cpsr.v) ∧
    t.cpsr.q = s.cpsr.q ∧ t.cpsr.i = s.cpsr.i ∧ t.cpsr.f = s.cpsr.f ∧ t.cpsr.t = s.cpsr.t ∧
    t.cpsr.m = s.cpsr.m

/-- One destination register, and nothing else but CPSR. -/
def writesOne (s t : State) (rd : Reg) (v : Word) : Prop :=
  t.reg rd = v ∧ (∀ r, r ≠ rd → t.reg r = s.reg r) ∧ t.flush = (s.flush || decide (rd = 15)) ∧
    t.mem = s.mem ∧ t.bus = s.bus ∧ s.sameOther t

/-- Two destination registers, the low one written first, and nothing else but CPSR. -/
def writesPair (s t : State) (rdLo rdHi : Reg) (v : BitVec 64) : Prop :=
  t.reg rdHi = v.extractLsb' 32 32 ∧ (rdLo ≠ rdHi → t.reg rdLo = v.extractLsb' 0 32) ∧
    (∀ r, r ≠ rdLo → r ≠ rdHi → t.reg r = s.reg r) ∧
    t.flush = (s.flush || decide (rdLo = 15) || decide (rdHi = 15)) ∧
    t.mem = s.mem ∧ t.bus = s.bus ∧ s.sameOther t

/-- A saturating operation: the clamped value of `v` into Rd, Q set if it or the doubling was clamped (R361). -/
def saturatesTo (s t : State) (rd : Reg) (v : Int) (clamped : Bool) : Prop :=
  writesOne s t rd (BitVec.ofInt 32 (clamp32 v)) ∧
    t.cpsr = { s.cpsr with q := s.cpsr.q || clamped || !fits32 v }

/-- An accumulate that wraps and sets Q on overflow (R258, R259). -/
def accumulatesTo (s t : State) (rd : Reg) (v : Int) : Prop :=
  writesOne s t rd (BitVec.ofInt 32 v) ∧ t.cpsr = { s.cpsr with q := s.cpsr.q || !fits32 v }

/-! ## Multiple transfers -/

/-- The register is transferred: it is in the list, or it is r15 and the list is empty (R332, R340). -/
def transferred (list : BitVec 16) (r : Reg) : Bool := if list = 0 then r == 15 else list.getLsbD r.val

/-- How many registers below number `n` are in the list. -/
def countBelow (list : BitVec 16) (n : Nat) : Nat := (List.range n).countP fun k => list.getLsbD k

/-- The n of R331: the number of registers in the list, 16 for an empty one (R340). -/
def listedCount (list : BitVec 16) : Nat := if list = 0 then 16 else countBelow list 16

/-- The address of register r in a multiple transfer: `start + 4k` for the k-th register (R331). -/
def slotAddress (mode : BlockMode) (base : Word) (list : BitVec 16) (r : Reg) : Word :=
  blockStart mode base (listedCount list) + BitVec.ofNat 32 (4 * countBelow list r.val)

/-- The word that a load gives register r: from the aligned address, unrotated (R333). -/
def State.slotWord (s : State) (mode : BlockMode) (base : Word) (list : BitVec 16) (r : Reg) : Word :=
  s.mem.readSized .word (slotAddress mode base list r)

/-- The transferred registers in ascending order. -/
def transferredRegs (list : BitVec 16) : List Reg := (List.finRange 16).filter fun r => transferred list r

/-- The loads of a multiple transfer on the Bus: ascending, the first non-sequential (R333). -/
def State.blockReads (s : State) (mode : BlockMode) (base : Word) (list : BitVec 16) : List BusAccess :=
  (transferredRegs list).map fun r =>
    s.readAccess .word (slotAddress mode base list r) (decide (countBelow list r.val ≠ 0)) false

/-- The stores of a multiple transfer on the Bus. -/
def State.blockWrites (s : State) (mode : BlockMode) (base : Word) (list : BitVec 16) (value : Reg → Word) :
    List BusAccess :=
  (transferredRegs list).map fun r =>
    s.writeAccess .word (slotAddress mode base list r) (value r) (decide (countBelow list r.val ≠ 0)) false

/-- The word STM stores for register r (R332, R335): r15 reads A plus `PC_STORE_OFFSET`; a base that is written
back follows `STM_BASE_IN_LIST`; any other register, a base with W = 0 among them (log 24), as the transfer sees
it. -/
def State.storedWord (s : State) (user wb : Bool) (mode : BlockMode) (rn : Reg) (list : BitVec 16) (r : Reg) : Word :=
  if r = 15 then s.instrAddr + pcOffsetBytes s.cfg.pcStoreOffset
  else if r = rn ∧ wb then
    match s.cfg.stmBaseInList with
    | .original => s.rop 8 rn
    | .arm7tdmi =>
      if countBelow list rn.val = 0 then s.rop 8 rn else blockBase mode (s.rop 8 rn) (listedCount list)
  else s.regMode (if user then modeUsr else s.cpsr.m) r

/-- Memory after the words of a multiple transfer: each transferred register's four bytes at its aligned address,
every other byte as before. -/
def storesBlock (m m' : Memory) (mode : BlockMode) (base : Word) (list : BitVec 16) (value : Reg → Word) : Prop :=
  (∀ r, transferred list r = true → ∀ d : Nat, d < 4 →
    m'.byteAt (alignTo .word (slotAddress mode base list r) + BitVec.ofNat 32 d) =
      (value r).extractLsb' (8 * d) 8) ∧
  ∀ x : Word, (∀ r, transferred list r = true →
    4 ≤ (x - alignTo .word (slotAddress mode base list r)).toNat) → m'.byteAt x = m.byteAt x

/-- The registers after the loads of LDM into the current mode, r15 left aside (R332, R334). -/
def loadsBlock (s t : State) (mode : BlockMode) (wb : Bool) (rn : Reg) (list : BitVec 16) : Prop :=
  (∀ r, r ≠ 15 → transferred list r = true → t.reg r = s.slotWord mode (s.rop 8 rn) list r) ∧
  (wb = true → rn ≠ 15 → transferred list rn = false →
    t.reg rn = blockBase mode (s.rop 8 rn) (listedCount list)) ∧
  ∀ r, r ≠ 15 → transferred list r = false → (r = rn → wb = false) → t.reg r = s.reg r

/-! ## Mode switch and exception entry -/

/-- The bank holds a cell of register n (R22). -/
def bankHolds (b : Bank) (n : Reg) : Bool :=
  match b with
  | .usr => decide (8 ≤ n.val) && decide (n.val ≤ 14)
  | .fiq => decide (8 ≤ n.val) && decide (n.val ≤ 14)
  | .irq => decide (13 ≤ n.val) && decide (n.val ≤ 14)
  | .svc => decide (13 ≤ n.val) && decide (n.val ≤ 14)
  | .abt => decide (13 ≤ n.val) && decide (n.val ≤ 14)
  | .und => decide (13 ≤ n.val) && decide (n.val ≤ 14)

/-- The cell of register n that the mode switch saves out of bank `ob`: r8 to r12 of a bank that is not FIQ stand
in the user bank (R371 (a)). -/
def savedInto (ob : Bank) (n : Reg) : Bank := if ob ≠ .fiq ∧ n.val ≤ 12 then .usr else ob

/-- The vector table of R521 by exception: the mode field and the vector address. -/
def exceptionRow : Exception → Nat × Nat
  | .undefinedInstruction => (0b11011, 0x04)
  | .supervisorCall => (0b10011, 0x08)
  | .prefetchAbort => (0b10111, 0x0C)
  | .dataAbort => (0b10111, 0x10)
  | .irq => (0b10010, 0x18)
  | .fiq => (0b10001, 0x1C)

end Sys2Proof.Machine
end

