-- ==== Sys2Proof/Certificates/Slice0/Obligations.lean ====
section
/-! DEFINITION. The statements for the provers. Each docstring names the rules of spec/ that its statement formalises;
where a clause rests on a decision of the spec or on an entry of the assumption log, the docstring says so. -/

section

open Sys2Proof Sys2Proof.Machine

/-! ## Encoding -/

/-- Every well-formed instruction of both sets, with every operand at every value its fields admit, is read back by
the decoder of its set from its encoding (30_encoding.md). -/
def Obligations.DecodeEncode : Prop :=
  ∀ i : Instr, i.wellFormed = true → decode (encode i) = i

/-- Decoding is total and never leaves the instruction set: every word is a well-formed ARM instruction, every
halfword a well-formed Thumb instruction (30_encoding.md sections 1 and 2). -/
def Obligations.DecodeIsWellFormed : Prop :=
  (∀ w : Word, (decodeArm w).wellFormed = true ∧ (decodeArm w).isThumb = false) ∧
  ∀ h : Half, (decodeThumb h).wellFormed = true ∧ (decodeThumb h).isThumb = true

/-- Words that the spec's own examples give, and the instructions that they stand for there (R228 to R512, the
examples of the instruction rules). -/
def Obligations.SpecWordsDecode : Prop :=
  decodeArm 0xE5910004#32 = .ldr .al .offset true 0 1 (.imm 4) ∧
  decodeArm 0xE8B0000E#32 = .ldm .al .ia false true 0 0x000E ∧
  decodeArm 0xE1020051#32 = .qadd .al 0 1 2 ∧
  decodeArm 0xE10F0000#32 = .mrs .al .cpsr 0 ∧
  decodeArm 0xE321F092#32 = .msrCpsr .al ⟨false, false, false, true⟩ (.imm 0 0x92) ∧
  decodeArm 0xEF123456#32 = .swi .al 0x123456 ∧
  decodeArm 0xE12ABC7D#32 = .bkpt .al 0xABCD ∧
  decodeArm 0xE1C200D0#32 = .ldrd .al .offset true 0 2 (.imm 0) ∧
  decodeArm 0xE1010092#32 = .swp .al 0 2 1 ∧
  decodeThumb 0x0088#16 = .tLslImm 0 1 2 ∧
  decodeThumb 0x4801#16 = .tLdrPc 0 1 ∧
  decodeThumb 0xB510#16 = .tPush true 0x10 ∧
  decodeThumb 0xF001#16 = .tBlHigh 1

/-! ## The step -/

/-- A step whose poll takes no interrupt and which is not halted runs the instruction in `slot[0]` on the state after
the pipeline's advance, then either moves r15 past the instruction by the width the step began with or reloads,
then adds at least one cycle (R170, decision D13; R173). The same for the bytes in memory: when the slot holds what
memory holds at the address of the next instruction (R39) and those bytes decode to `i`, the step runs `i`. -/
def Obligations.StepRunsTheDecodedInstruction : Prop :=
  ∀ (s : State) (i : Instr) (t : State),
    s.interrupted = false → s.halted = false → exec i s.clearBus.pipelineAdvance = .next t →
    (decodeFetched s.cpsr.t s.slot0 = i →
      steppedTo s (if t.flush then t.reload else t.advancePc s.width)) ∧
    (s.pcAligned = true → s.slot0 = s.mem.readSized (fetchSize s.cpsr.t) s.instrAddr →
      ∀ rest, decodeBytes s.cpsr.t s.nextBytes = .ok (i, rest) →
      steppedTo s (if t.flush then t.reload else t.advancePc s.width))

/-- A table word placed by `withFetchWord` is the instruction that the very next step runs (the model's own placing,
assumption log 12). -/
def Obligations.PlacedWordRuns : Prop :=
  ∀ (s : State) (nbits w : Nat) (i : Instr) (t : State),
    decodeTableWord nbits w = some i →
    exec i (s.withFetchWord nbits w).clearBus.pipelineAdvance = .next t →
    steppedTo (s.withFetchWord nbits w)
      (if t.flush then t.reload else t.advancePc (widthOf (decide (nbits = 16))))

/-- No step of any state faults or is refused, and every step costs at least one cycle: `step()` "never fails" (R565,
R86 by decision D34; R43 by decision D26). -/
def Obligations.StepNeverStops : Prop :=
  ∀ s : State, ∃ t, step s = .next t ∧ s.cycles < t.cycles

/-- An invariant of every step: no discard is outstanding, r15 is a multiple of the instruction width, in Thumb state
both slots hold halfwords, memory keeps its canonical form (R38, R40 by decision D31, R37; the form of memory is
the model's, assumption log 2). -/
def Obligations.BoundaryInvariant : Prop :=
  ∀ s t : State, s.boundary → step s = .next t → t.boundary

/-- The invariant holds after reset, and after a reset at any boundary. -/
def Obligations.ResetBoundary : Prop :=
  State.reset.boundary ∧ ∀ s : State, s.mem.wf = true → s.hostReset.boundary

/-- The state after `reset()` from any state (R45, decision D15): every register, shadow cell and SPSR 0, CPSR
0x000000D3, the pipeline primed from address 0; memory and the inputs as they were. The model's `State.reset` is
what reset makes of itself. -/
def Obligations.ResetState : Prop :=
  State.reset.hostReset = State.reset ∧
  ∀ s : State,
    (∀ r : Reg, s.hostReset.reg r = if r = 15 then 8 else 0) ∧
    (∀ (b : Bank) (n : Reg), s.hostReset.shadow b n = 0) ∧
    packPsr s.hostReset.cpsr = 0x000000D3#32 ∧
    (∀ (b : Bank) (p : Psr), s.hostReset.spsrOf b = some p → packPsr p = 0) ∧
    s.hostReset.slot0 = s.mem.readSized .word 0 ∧ s.hostReset.slot1 = s.mem.readSized .word 4 ∧
    s.hostReset.flush = false ∧ s.hostReset.halted = false ∧ s.hostReset.cycles = 0 ∧
    s.hostReset.pending = s.pending ∧ s.hostReset.fiqLine = s.fiqLine ∧ s.hostReset.mem = s.mem

/-- An ARM instruction whose condition does not pass changes nothing, whatever it is, and its step is the fetch, the
advance by 4 and the cycles (R181). -/
def Obligations.FailedConditionSkips : Prop :=
  ∀ (s : State) (i : Instr) (c : Cond), armCond i = some c → condPass c s.cpsr = false →
    exec i s = .next s ∧
    (s.cpsr.t = false → s.currentInstr = i → s.flush = false → s.interrupted = false → s.halted = false →
      steppedTo s (s.clearBus.pipelineAdvance.advancePc 4))

/-- The pipeline. `PipelineAdvance()` (R171): the slots move up, one sequential fetch from the fetch address fills the
second, and nothing else changes. `Reload()` (R173): r15 aligned by the current T, two fetches there,
non-sequential and sequential, r15 two widths on, no discard outstanding, and nothing else changes. -/
def Obligations.PipelineResults : Prop :=
  ∀ (s : State) (a w : Word) (size : AccessSize),
    w = (if s.cpsr.t then 2 else 4) → size = (if s.cpsr.t then .half else .word) →
    a = BitVec.ofNat 32 ((s.reg 15).toNat / w.toNat * w.toNat) →
    s.pipelineAdvance =
      { s with
        slot0 := s.slot1
        slot1 := s.mem.readSized size (s.reg 15)
        bus := s.bus ++ [s.readAccess size (s.reg 15) true false] } ∧
    s.reload =
      { s with
        regs := s.regs.set 15 (a + 2 * w)
        slot0 := s.mem.readSized size a
        slot1 := s.mem.readSized size (a + w)
        flush := false
        bus := s.bus ++ [s.readAccess size a false false, s.readAccess size (a + w) true false] }

/-- The interrupts (R530, decisions D12 and D13): a step that takes one executes no instruction; it clears the halted
state, enters the exception with the address of the next instruction plus 4 as return address, reloads from the
vector and adds cycles. The fast interrupt comes first; the configuration may clear the request (`IRQ_ACK_CLEARS`). -/
def Obligations.InterruptSteps : Prop :=
  ∀ s : State,
    (s.cfg.hasFiqLine = true → s.fiqLine = true → s.cpsr.f = false →
      steppedTo s (State.enter { s.clearBus with halted := false } .fiq (s.instrAddr + 4)).reload) ∧
    ((s.cfg.hasFiqLine = false ∨ s.fiqLine = false ∨ s.cpsr.f = true) → s.pending ≠ 0 → s.cpsr.i = false →
      steppedTo s
        (State.reload { State.enter { s.clearBus with halted := false } .irq (s.instrAddr + 4) with
          pending := if s.cfg.irqAckClears then 0 else s.pending }))

/-- The operations of the environment between steps, and the halted state. `requestInterrupt` raises the request bits
of its mask, `lowerInterrupt` clears them (R42, R567, decision D12), `requestHalt` halts (R540, decision D14), the
fast-interrupt input follows its level where the hardware has it (R42), a device or another master writes one byte
(R11, decision D29; the form of memory is the model's, log 2): each changes that and nothing else. A halted step
without a request only adds cycles; with a request that is masked the same step wakes and goes on as the step of the
woken state (R541, R542, decision D14). -/
def Obligations.EnvironmentAndHaltedSteps : Prop :=
  (∀ (s : State) (mask : Word),
    let r := s.requestInterrupt mask
    let l := s.lowerInterrupt mask
    (∀ k : Nat, r.pending.getLsbD k = (s.pending.getLsbD k || mask.getLsbD k)) ∧
    r = { s with pending := r.pending } ∧
    (∀ k : Nat, l.pending.getLsbD k = (s.pending.getLsbD k && !mask.getLsbD k)) ∧
    l = { s with pending := l.pending }) ∧
  (∀ s : State, s.requestHalt = { s with halted := true }) ∧
  (∀ (s : State) (level : Bool),
    let t := s.setFiqLine level
    t = { s with fiqLine := t.fiqLine } ∧ (s.cfg.hasFiqLine = true → t.fiqLine = level) ∧
      (s.cfg.hasFiqLine = false → t.fiqLine = false)) ∧
  (∀ (s : State) (a : Word) (b : Byte),
    let t := s.envStore a b
    t = { s with mem := t.mem } ∧ (∀ x : Word, t.mem.byteAt x = if x = a then b else s.mem.byteAt x) ∧
      (s.mem.wf = true → t.mem.wf = true)) ∧
  ∀ s : State, s.halted = true →
    (s.pending = 0 → s.fiqRequest = false → steppedTo s s.clearBus) ∧
    (s.interrupted = false → (s.pending ≠ 0 ∨ s.fiqRequest = true) → step s = step { s with halted := false })

/-- `run(cycleBudget)` (R566): it always ends, after some number of steps from `s`, and returns the cycles actually
spent, which are the budget at least; before every one of these steps the budget was not spent, so the overshoot is
less than the last step's cost; a budget of 0 runs nothing and returns 0. -/
def Obligations.RunConsumesBudget : Prop :=
  ∀ (budget : Nat) (s : State),
    ∃ k t spent, run budget s = .next { final := t, spent := spent } ∧ stepsTo k s t ∧
      t.cycles = s.cycles + spent ∧ budget ≤ spent ∧
      (∀ j u, j < k → stepsTo j s u → u.cycles < s.cycles + budget) ∧
      (budget = 0 → k = 0 ∧ t = s ∧ spent = 0) ∧
      (0 < budget →
        ∃ j u, k = j + 1 ∧ stepsTo j s u ∧ u.cycles < s.cycles + budget ∧ step u = .next t)

/-! ## The shifter and the adder -/

/-- The shifter's immediate form in integers (R201), where 0 stands for 32 in LSR and ASR and for RRX in ROR; its last
clause with n = 0 is the property of rotate-right-with-extend (R203). -/
def Obligations.ShifterImmediate : Prop :=
  ∀ (v : Word) (n : Nat) (c : Bool), n < 32 →
    (let r := shiftImmediate .lsl v n c
     r.value.toNat = v.toNat * 2 ^ n % 2 ^ 32 ∧
       r.carry = if n = 0 then c else decide (v.toNat / 2 ^ (32 - n) % 2 = 1)) ∧
    (let m := if n = 0 then 32 else n
     let r := shiftImmediate .lsr v n c
     r.value.toNat = v.toNat / 2 ^ m ∧ r.carry = decide (v.toNat / 2 ^ (m - 1) % 2 = 1)) ∧
    (let m := if n = 0 then 32 else n
     let r := shiftImmediate .asr v n c
     r.value.toInt = v.toInt / 2 ^ m ∧ r.carry = decide (v.toNat / 2 ^ (m - 1) % 2 = 1)) ∧
    (let r := shiftImmediate .ror v n c
     if n = 0 then r.value.toNat = v.toNat / 2 + c.toNat * 2 ^ 31 ∧ r.carry = decide (v.toNat % 2 = 1)
     else r.value = v.rotateRight n ∧ r.carry = decide (v.toNat / 2 ^ (n - 1) % 2 = 1))

/-- The shifter's register form in integers (R202), for every amount that the low byte of a register gives. A rotate by
32 or more is a rotation by the amount modulo 32, as the table of R202 has it (conflict C4 of 90_conflicts.md). -/
def Obligations.ShifterRegister : Prop :=
  ∀ (v : Word) (n : Nat) (c : Bool), n < 256 →
    (n = 0 → ∀ type, shiftRegister type v n c = ⟨v, c⟩) ∧
    (1 ≤ n →
      (let r := shiftRegister .lsl v n c
       r.value.toNat = v.toNat * 2 ^ n % 2 ^ 32 ∧ r.carry = decide (v.toNat * 2 ^ n / 2 ^ 32 % 2 = 1)) ∧
      (let r := shiftRegister .lsr v n c
       r.value.toNat = v.toNat / 2 ^ n ∧ r.carry = decide (v.toNat / 2 ^ (n - 1) % 2 = 1)) ∧
      (let r := shiftRegister .asr v n c
       r.value.toInt = v.toInt / 2 ^ n ∧ r.carry = decide (v.toInt / 2 ^ (n - 1) % 2 = 1)) ∧
      (let r := shiftRegister .ror v n c
       r.value = v.rotateRight n ∧ r.carry = r.value.msb))

/-- The adder (R208): result, carry and overflow as the rule computes them, what they mean in exact integers, and the
consequences for a subtraction. -/
def Obligations.AdderExact : Prop :=
  ∀ (x y : Word) (cin : Bool),
    (addWithCarry x y cin).result.toNat = (x.toNat + y.toNat + cin.toNat) % 2 ^ 32 ∧
    (addWithCarry x y cin).carry = decide (2 ^ 32 ≤ x.toNat + y.toNat + cin.toNat) ∧
    (addWithCarry x y cin).overflow = (~~~(x ^^^ y) &&& (x ^^^ (addWithCarry x y cin).result)).msb ∧
    (addWithCarry x y cin).overflow = !fits32 (x.toInt + y.toInt + cin.toNat) ∧
    (addWithCarry x (~~~y) cin).result = x - y - BitVec.ofNat 32 (!cin).toNat ∧
    (addWithCarry x (~~~y) true).carry = decide (y.toNat ≤ x.toNat) ∧
    (addWithCarry x (~~~y) true).overflow = !fits32 (x.toInt - y.toInt)

/-- Every operand form, and every read of r15. A read of r15 gives the instruction's address plus the reader's offset
(R175, decision D5): in ARM state with the offset 8 it is the fetch address, 4 more under an offset parameter of 12,
the fetch address under one of 8; in Thumb state with the offset 4 it is the fetch address. Data processing (R109,
R204): the rotated immediate with its carry, the register shifted by an immediate, the register shifted by the low
byte of a register. MSR (R376): the rotated immediate, or a register. The offsets of the transfers (R281, R285,
R302): the 12-bit immediate; the shifted register without its carry, where LSR #0 and ASR #0 shift by 32 and ROR #0
shifts C in from the left; the 8-bit immediate that stands in two halves of the word; the register. r15 as a shift
amount, an offset or an MSR operand reads as the spec decides (D21, log 7, DESIGN CHOICE). -/
def Obligations.OperandForms : Prop :=
  (∀ (s : State) (r : Reg) (k : Word),
    let here := s.reg 15 - (if s.cpsr.t then 4 else 8)
    s.instrAddr = here ∧ s.rop k r = (if r = 15 then here + k else s.reg r) ∧
    (s.cpsr.t = true → s.rop 4 r = s.reg r) ∧
    (s.cpsr.t = false → s.rop 8 r = s.reg r ∧
      s.rop (pcOffsetBytes .plus12) 15 = s.reg 15 + 4 ∧ s.rop (pcOffsetBytes .plus8) 15 = s.reg 15)) ∧
  (∀ (s : State) (rn rm rs : Reg) (type : ShiftType) (rot : BitVec 4) (imm8 : BitVec 8) (imm5 : BitVec 5),
    let rotated := (imm8.setWidth 32 : Word).rotateRight (2 * rot.toNat)
    let k : Word := if s.cfg.pcRegShiftOffset = .plus12 then 12 else 8
    s.operand1 rn (.imm rot imm8) = s.rop 8 rn ∧
    s.operand2 (.imm rot imm8) = ⟨rotated, if rot = 0 then s.cpsr.c else rotated.msb⟩ ∧
    s.operand1 rn (.shiftImm type imm5 rm) = s.rop 8 rn ∧
    s.operand2 (.shiftImm type imm5 rm) = shiftImmediate type (s.rop 8 rm) imm5.toNat s.cpsr.c ∧
    s.operand1 rn (.shiftReg type rs rm) = s.rop k rn ∧
    s.operand2 (.shiftReg type rs rm) =
      shiftRegister type (s.rop k rm) ((s.rop k rs).toNat % 256) s.cpsr.c ∧
    s.msrOperand (.imm rot imm8) = rotated ∧ s.msrOperand (.reg rm) = s.rop 8 rm) ∧
  (∀ (s : State) (rm : Reg) (type : ShiftType) (imm5 : BitVec 5) (imm12 : BitVec 12) (imm8 : BitVec 8),
    let v := s.rop 8 rm
    (s.singleOffset (.imm imm12)).toNat = imm12.toNat ∧
    s.singleOffset (.shifted type imm5 rm) = (shiftImmediate type v imm5.toNat s.cpsr.c).value ∧
    s.singleOffset (.shifted .lsl 0 rm) = v ∧ s.singleOffset (.shifted .lsr 0 rm) = 0 ∧
    s.singleOffset (.shifted .asr 0 rm) = (if v.msb then BitVec.allOnes 32 else 0) ∧
    (s.singleOffset (.shifted .ror 0 rm)).toNat = v.toNat / 2 + s.cpsr.c.toNat * 2 ^ 31 ∧
    (s.halfOffset (.imm imm8)).toNat = imm8.toNat ∧ s.halfOffset (.reg rm) = v) ∧
  ∀ hi lo : BitVec 4,
    decodeArm (0xE1D00#20 ++ hi ++ 0xB#4 ++ lo) = .ldrh .al .offset true 0 0 (.imm (hi ++ lo))

/-! ## Data processing -/

/-- SUB, RSB, ADD, ADC, SBC, RSC with a destination other than r15 (R215 to R220): the exact result, and with S = 1
N, Z, C and V of it; nothing else changes. For r15 see `PcDestinationBranches` and `PcDestinationReturns`. -/
def Obligations.ArithmeticResults : Prop :=
  ∀ (s : State) (c : Cond) (sb : Bool) (rd rn : Reg) (op2 : Operand2), condPass c s.cpsr = true → rd ≠ 15 →
    let a := s.operand1 rn op2
    let b := (s.operand2 op2).value
    let k := s.cpsr.c.toNat
    let nk := (!s.cpsr.c).toNat
    exec (.sub c sb rd rn op2) s =
      .next (s.arithAnswer sb rd (a - b) (decide (b.toNat ≤ a.toNat)) (!fits32 (a.toInt - b.toInt))) ∧
    exec (.rsb c sb rd rn op2) s =
      .next (s.arithAnswer sb rd (b - a) (decide (a.toNat ≤ b.toNat)) (!fits32 (b.toInt - a.toInt))) ∧
    exec (.add c sb rd rn op2) s =
      .next (s.arithAnswer sb rd (a + b) (decide (2 ^ 32 ≤ a.toNat + b.toNat)) (!fits32 (a.toInt + b.toInt))) ∧
    exec (.adc c sb rd rn op2) s =
      .next (s.arithAnswer sb rd (a + b + BitVec.ofNat 32 k) (decide (2 ^ 32 ≤ a.toNat + b.toNat + k))
        (!fits32 (a.toInt + b.toInt + k))) ∧
    exec (.sbc c sb rd rn op2) s =
      .next (s.arithAnswer sb rd (a - b - BitVec.ofNat 32 nk) (decide (b.toNat + nk ≤ a.toNat))
        (!fits32 (a.toInt - b.toInt - nk))) ∧
    exec (.rsc c sb rd rn op2) s =
      .next (s.arithAnswer sb rd (b - a - BitVec.ofNat 32 nk) (decide (a.toNat + nk ≤ b.toNat))
        (!fits32 (b.toInt - a.toInt - nk)))

/-- AND, EOR, ORR, MOV, BIC, MVN with a destination other than r15 (R213, R214, R225, R226, R228, R229): the result,
and with S = 1 N, Z of it and C from the shifter, V as before; nothing else changes. -/
def Obligations.LogicResults : Prop :=
  ∀ (s : State) (c : Cond) (sb : Bool) (rd rn : Reg) (op2 : Operand2), condPass c s.cpsr = true → rd ≠ 15 →
    let a := s.operand1 rn op2
    let b := (s.operand2 op2).value
    let k := (s.operand2 op2).carry
    exec (.and c sb rd rn op2) s = .next (s.logicAnswer sb rd (a &&& b) k) ∧
    exec (.eor c sb rd rn op2) s = .next (s.logicAnswer sb rd (a ^^^ b) k) ∧
    exec (.orr c sb rd rn op2) s = .next (s.logicAnswer sb rd (a ||| b) k) ∧
    exec (.mov c sb rd op2) s = .next (s.logicAnswer sb rd b k) ∧
    exec (.bic c sb rd rn op2) s = .next (s.logicAnswer sb rd (a &&& ~~~b) k) ∧
    exec (.mvn c sb rd op2) s = .next (s.logicAnswer sb rd (~~~b) k)

/-- TST, TEQ, CMP, CMN (R221, R222, R224; CMP by R223, see also `CompareConditions`): the four flags and nothing
else. -/
def Obligations.ComparisonResults : Prop :=
  ∀ (s : State) (c : Cond) (rn : Reg) (op2 : Operand2), condPass c s.cpsr = true →
    let a := s.operand1 rn op2
    let b := (s.operand2 op2).value
    let k := (s.operand2 op2).carry
    exec (.tst c rn op2) s = .next (s.flagAnswer (a &&& b) k s.cpsr.v) ∧
    exec (.teq c rn op2) s = .next (s.flagAnswer (a ^^^ b) k s.cpsr.v) ∧
    exec (.cmp c rn op2) s =
      .next (s.flagAnswer (a - b) (decide (b.toNat ≤ a.toNat)) (!fits32 (a.toInt - b.toInt))) ∧
    exec (.cmn c rn op2) s =
      .next (s.flagAnswer (a + b) (decide (2 ^ 32 ≤ a.toNat + b.toNat)) (!fits32 (a.toInt + b.toInt)))

/-- The table of the sixteen conditions (R180, decision D7; 1111 never passes, R106): the condition that each value of
the field stands for, and when it passes, from N, Z, C and V. After CMP a, b (R223) the conditions compare a and b: EQ
and NE, CS, CC, HI and LS unsigned, GE, LT, GT and LE signed. -/
def Obligations.CompareConditions : Prop :=
  ((List.range 16).map fun k => Cond.ofBits (BitVec.ofNat 4 k)) =
    [.eq, .ne, .cs, .cc, .mi, .pl, .vs, .vc, .hi, .ls, .ge, .lt, .gt, .le, .al, .nv] ∧
  (∀ p : Psr,
    (condPass .eq p = true ↔ p.z = true) ∧ (condPass .ne p = true ↔ p.z = false) ∧
    (condPass .cs p = true ↔ p.c = true) ∧ (condPass .cc p = true ↔ p.c = false) ∧
    (condPass .mi p = true ↔ p.n = true) ∧ (condPass .pl p = true ↔ p.n = false) ∧
    (condPass .vs p = true ↔ p.v = true) ∧ (condPass .vc p = true ↔ p.v = false) ∧
    (condPass .hi p = true ↔ p.c = true ∧ p.z = false) ∧
    (condPass .ls p = true ↔ p.c = false ∨ p.z = true) ∧
    (condPass .ge p = true ↔ p.n = p.v) ∧ (condPass .lt p = true ↔ p.n ≠ p.v) ∧
    (condPass .gt p = true ↔ p.z = false ∧ p.n = p.v) ∧ (condPass .le p = true ↔ p.z = true ∨ p.n ≠ p.v) ∧
    condPass .al p = true ∧ condPass .nv p = false) ∧
  ∀ (s : State) (rn : Reg) (op2 : Operand2) (t : State), exec (.cmp .al rn op2) s = .next t →
    let a := s.operand1 rn op2
    let b := (s.operand2 op2).value
    condPass .eq t.cpsr = decide (a = b) ∧ condPass .ne t.cpsr = decide (a ≠ b) ∧
    condPass .cs t.cpsr = decide (b.toNat ≤ a.toNat) ∧ condPass .cc t.cpsr = decide (a.toNat < b.toNat) ∧
    condPass .hi t.cpsr = decide (b.toNat < a.toNat) ∧ condPass .ls t.cpsr = decide (a.toNat ≤ b.toNat) ∧
    condPass .ge t.cpsr = decide (b.toInt ≤ a.toInt) ∧ condPass .lt t.cpsr = decide (a.toInt < b.toInt) ∧
    condPass .gt t.cpsr = decide (b.toInt < a.toInt) ∧ condPass .le t.cpsr = decide (a.toInt ≤ b.toInt)

/-- Destination r15 with S = 0 (R211): the branch to the result, CPSR unchanged; in ARM state the reload goes on at
the result aligned to 4. -/
def Obligations.PcDestinationBranches : Prop :=
  (∀ (s : State) (c : Cond) (rn : Reg) (op2 : Operand2), condPass c s.cpsr = true →
    let a := s.operand1 rn op2
    let b := (s.operand2 op2).value
    let k := BitVec.ofNat 32 s.cpsr.c.toNat
    let nk := BitVec.ofNat 32 (!s.cpsr.c).toNat
    exec (.and c false 15 rn op2) s = .next (s.branchAnswer (a &&& b)) ∧
    exec (.eor c false 15 rn op2) s = .next (s.branchAnswer (a ^^^ b)) ∧
    exec (.sub c false 15 rn op2) s = .next (s.branchAnswer (a - b)) ∧
    exec (.rsb c false 15 rn op2) s = .next (s.branchAnswer (b - a)) ∧
    exec (.add c false 15 rn op2) s = .next (s.branchAnswer (a + b)) ∧
    exec (.adc c false 15 rn op2) s = .next (s.branchAnswer (a + b + k)) ∧
    exec (.sbc c false 15 rn op2) s = .next (s.branchAnswer (a - b - nk)) ∧
    exec (.rsc c false 15 rn op2) s = .next (s.branchAnswer (b - a - nk)) ∧
    exec (.orr c false 15 rn op2) s = .next (s.branchAnswer (a ||| b)) ∧
    exec (.mov c false 15 op2) s = .next (s.branchAnswer b) ∧
    exec (.bic c false 15 rn op2) s = .next (s.branchAnswer (a &&& ~~~b)) ∧
    exec (.mvn c false 15 op2) s = .next (s.branchAnswer (~~~b))) ∧
  ∀ (s : State) (target : Word), s.cpsr.t = false →
    (s.branchAnswer target).reload.instrAddr = BitVec.ofNat 32 (target.toNat / 4 * 4) ∧
    (s.branchAnswer target).reload.cpsr = s.cpsr

/-- Destination r15 with S = 1 (R212): the return. The result comes from the old state; with an SPSR the banks move to
its mode and CPSR takes all of it; the flags of the result go nowhere. In a mode without an SPSR only the branch is
left: that case is U2, by decision D17 of R34, a DESIGN CHOICE of the model (log 7). -/
def Obligations.PcDestinationReturns : Prop :=
  ∀ (s : State) (c : Cond) (rn : Reg) (op2 : Operand2), condPass c s.cpsr = true →
    let a := s.operand1 rn op2
    let b := (s.operand2 op2).value
    let k := BitVec.ofNat 32 s.cpsr.c.toNat
    let nk := BitVec.ofNat 32 (!s.cpsr.c).toNat
    exec (.and c true 15 rn op2) s = .next (s.returnAnswer (a &&& b)) ∧
    exec (.eor c true 15 rn op2) s = .next (s.returnAnswer (a ^^^ b)) ∧
    exec (.sub c true 15 rn op2) s = .next (s.returnAnswer (a - b)) ∧
    exec (.rsb c true 15 rn op2) s = .next (s.returnAnswer (b - a)) ∧
    exec (.add c true 15 rn op2) s = .next (s.returnAnswer (a + b)) ∧
    exec (.adc c true 15 rn op2) s = .next (s.returnAnswer (a + b + k)) ∧
    exec (.sbc c true 15 rn op2) s = .next (s.returnAnswer (a - b - nk)) ∧
    exec (.rsc c true 15 rn op2) s = .next (s.returnAnswer (b - a - nk)) ∧
    exec (.orr c true 15 rn op2) s = .next (s.returnAnswer (a ||| b)) ∧
    exec (.mov c true 15 op2) s = .next (s.returnAnswer b) ∧
    exec (.bic c true 15 rn op2) s = .next (s.returnAnswer (a &&& ~~~b)) ∧
    exec (.mvn c true 15 op2) s = .next (s.returnAnswer (~~~b))

/-! ## Multiplies and saturating arithmetic -/

/-- MUL and MLA (R252, R253; C and V after S = 1 by R263, decision D18, log 6; r15 operands by R264, decision
D21, log 7). -/
def Obligations.MultiplyResults : Prop :=
  ∀ (s : State) (c : Cond) (sb : Bool) (rd rm rs rn : Reg), condPass c s.cpsr = true →
    let p := (s.rop 8 rm).toNat * (s.rop 8 rs).toNat
    (∃ t, exec (.mul c sb rd rm rs) s = .next t ∧
      writesOne s t rd (BitVec.ofNat 32 p) ∧
      multiplyFlags s t sb false (BitVec.ofNat 32 p).msb (decide (BitVec.ofNat 32 p = 0))) ∧
    (let q := p + (s.rop 8 rn).toNat
     ∃ t, exec (.mla c sb rd rm rs rn) s = .next t ∧
      writesOne s t rd (BitVec.ofNat 32 q) ∧
      multiplyFlags s t sb false (BitVec.ofNat 32 q).msb (decide (BitVec.ofNat 32 q = 0)))

/-- UMULL, UMLAL, SMULL, SMLAL (R254 to R257): the exact product, unsigned or signed, plus the pair as accumulator,
modulo 2^64; N and Z of all 64 bits (C and V by R263, decision D18, log 6; equal or r15 registers by R264, decision
D21, log 7). -/
def Obligations.LongMultiplyResults : Prop :=
  ∀ (s : State) (c : Cond) (sb : Bool) (rdLo rdHi rm rs : Reg), condPass c s.cpsr = true →
    let acc : Nat := (s.rop 8 rdHi).toNat * 2 ^ 32 + (s.rop 8 rdLo).toNat
    let u : Nat := (s.rop 8 rm).toNat * (s.rop 8 rs).toNat
    let i : Int := (s.rop 8 rm).toInt * (s.rop 8 rs).toInt
    let answers := fun (instr : Instr) (p : BitVec 64) =>
      ∃ t, exec instr s = .next t ∧ writesPair s t rdLo rdHi p ∧
        multiplyFlags s t sb true p.msb (decide (p = 0))
    answers (.umull c sb rdLo rdHi rm rs) (BitVec.ofNat 64 u) ∧
    answers (.umlal c sb rdLo rdHi rm rs) (BitVec.ofNat 64 (u + acc)) ∧
    answers (.smull c sb rdLo rdHi rm rs) (BitVec.ofInt 64 i) ∧
    answers (.smlal c sb rdLo rdHi rm rs) (BitVec.ofInt 64 (i + acc))

/-- SMLAxy, SMLAWy, SMULWy, SMLALxy, SMULxy (R258 to R262; the wrapped sum with Q by decision D30; r15 operands by
R264, decision D21, log 7): signed halves, the 48-bit product shifted right by 16 rounding down. -/
def Obligations.HalfMultiplyResults : Prop :=
  ∀ (s : State) (c : Cond) (x y : HalfSel) (rd rm rs rn : Reg), condPass c s.cpsr = true →
    let half := fun (v : Word) (sel : HalfSel) =>
      (match sel with | .bottom => v.extractLsb' 0 16 | .top => v.extractLsb' 16 16 : BitVec 16).toInt
    let xy := half (s.rop 8 rm) x * half (s.rop 8 rs) y
    let wy := (s.rop 8 rm).toInt * half (s.rop 8 rs) y / 2 ^ 16
    (∃ t, exec (.smlaxy c x y rd rm rs rn) s = .next t ∧ accumulatesTo s t rd (xy + (s.rop 8 rn).toInt)) ∧
    (∃ t, exec (.smlawy c y rd rm rs rn) s = .next t ∧ accumulatesTo s t rd (wy + (s.rop 8 rn).toInt)) ∧
    (∃ t, exec (.smulwy c y rd rm rs) s = .next t ∧ writesOne s t rd (BitVec.ofInt 32 wy) ∧ t.cpsr = s.cpsr) ∧
    (∃ t, exec (.smlalxy c x y rn rd rm rs) s = .next t ∧
      writesPair s t rn rd
        (BitVec.ofInt 64 ((s.rop 8 rd).toNat * 2 ^ 32 + (s.rop 8 rn).toNat + xy)) ∧ t.cpsr = s.cpsr) ∧
    (∃ t, exec (.smulxy c x y rd rm rs) s = .next t ∧ writesOne s t rd (BitVec.ofInt 32 xy) ∧ t.cpsr = s.cpsr)

/-- `SignedSat32` (R360): the value clamped to the signed 32-bit range, and whether it was clamped. -/
def Obligations.SignedSaturation : Prop :=
  ∀ v : Int,
    (signedSat32 v).1.toInt = clamp32 v ∧
    ((signedSat32 v).2 = true ↔ (2 ^ 31 - 1 < v ∨ v < -2 ^ 31)) ∧
    (2 ^ 31 - 1 < v → (signedSat32 v).1 = 0x7FFFFFFF) ∧
    (v < -2 ^ 31 → (signedSat32 v).1 = 0x80000000) ∧
    (-2 ^ 31 ≤ v → v ≤ 2 ^ 31 - 1 → (signedSat32 v).1 = BitVec.ofInt 32 v)

/-- QADD, QSUB, QDADD, QDSUB (R361 to R365; r15 by R366, decision D21, log 7): the clamped signed sum or difference,
the D forms with the clamped double of Rn; Q set by any clamp and otherwise as before. -/
def Obligations.SaturatingResults : Prop :=
  ∀ (s : State) (c : Cond) (rd rm rn : Reg), condPass c s.cpsr = true →
    let a := (s.rop 8 rm).toInt
    let b := (s.rop 8 rn).toInt
    let d := doubleClamped (s.rop 8 rn)
    (∃ t, exec (.qadd c rd rm rn) s = .next t ∧ saturatesTo s t rd (a + b) false) ∧
    (∃ t, exec (.qsub c rd rm rn) s = .next t ∧ saturatesTo s t rd (a - b) false) ∧
    (∃ t, exec (.qdadd c rd rm rn) s = .next t ∧ saturatesTo s t rd (a + d) (!fits32 (2 * b))) ∧
    (∃ t, exec (.qdsub c rd rm rn) s = .next t ∧ saturatesTo s t rd (a - d) (!fits32 (2 * b)))

/-- Q is sticky (R31): an instruction may clear it only as MSR with the flags field or as a copy of an SPSR; no
condition reads it. -/
def Obligations.QSticky : Prop :=
  (∀ (i : Instr) (s t : State), exec i s = .next t → s.cpsr.q = true →
    t.cpsr.q = true ∨ writesFlagsByMsr i = true ∨ copiesSpsr i = true) ∧
  ∀ (c : Cond) (p : Psr) (q : Bool), condPass c { p with q := q } = condPass c p

/-! ## Single transfers -/

/-- LDR, LDRB, LDRT, LDRBT (R282, R286, R290, R292, R294, R296; the rotation of a misaligned word by decision D9, r15
as base by D21, log 7): the data from the address of the form, the base written back unless it is the destination. -/
def Obligations.SingleLoads : Prop :=
  ∀ (s : State) (c : Cond) (mode : IndexMode) (up : Bool) (rd rn : Reg) (off : Offset), condPass c s.cpsr = true →
    let target := transferTarget up (s.rop 8 rn) (s.singleOffset off)
    let wb := decide (mode ≠ .offset)
    let a := transferAt mode (s.rop 8 rn) target
    let b := s.rop 8 rn
    let word := fun x : Word => (s.mem.readSized .word x).rotateRight (8 * (x.toNat % 4))
    let byte := fun x : Word => ((s.mem.byteAt x).setWidth 32 : Word)
    (∃ t, exec (.ldr c mode up rd rn off) s = .next t ∧
      loadsTo s t rd rn wb target (word a) (s.readAccess .word a false false)) ∧
    (∃ t, exec (.ldrb c mode up rd rn off) s = .next t ∧
      loadsTo s t rd rn wb target (byte a) (s.readAccess .byte a false false)) ∧
    (∃ t, exec (.ldrt c up rd rn off) s = .next t ∧
      loadsTo s t rd rn true target (word b) (s.readAccess .word b false true)) ∧
    (∃ t, exec (.ldrbt c up rd rn off) s = .next t ∧
      loadsTo s t rd rn true target (byte b) (s.readAccess .byte b false true))

/-- STR, STRB, STRT, STRBT (R282, R291, R293, R295, R297; r15 as data by decision D5, as base by D21, the base as data
by D20, the last two log 7): the bytes of the value before the writeback, at the aligned address of the form, and no
other byte. -/
def Obligations.SingleStores : Prop :=
  ∀ (s : State) (c : Cond) (mode : IndexMode) (up : Bool) (rd rn : Reg) (off : Offset), condPass c s.cpsr = true →
    let target := transferTarget up (s.rop 8 rn) (s.singleOffset off)
    let wb := decide (mode ≠ .offset)
    let a := transferAt mode (s.rop 8 rn) target
    let b := s.rop 8 rn
    let v := s.rop (pcOffsetBytes s.cfg.pcStoreOffset) rd
    (∃ t, exec (.str c mode up rd rn off) s = .next t ∧
      storesTo s t rn wb target .word a v (s.writeAccess .word a v false false)) ∧
    (∃ t, exec (.strb c mode up rd rn off) s = .next t ∧
      storesTo s t rn wb target .byte a v (s.writeAccess .byte a v false false)) ∧
    (∃ t, exec (.strt c up rd rn off) s = .next t ∧
      storesTo s t rn true target .word b v (s.writeAccess .word b v false true)) ∧
    (∃ t, exec (.strbt c up rd rn off) s = .next t ∧
      storesTo s t rn true target .byte b v (s.writeAccess .byte b v false true))

/-- LDRH, LDRSB, LDRSH, STRH (R302, R305 to R308; odd addresses by decision D9, r15 forms by D21, both log 7). -/
def Obligations.HalfTransfers : Prop :=
  ∀ (s : State) (c : Cond) (mode : IndexMode) (up : Bool) (rd rn : Reg) (off : HalfOffset),
    condPass c s.cpsr = true →
    let target := transferTarget up (s.rop 8 rn) (s.halfOffset off)
    let wb := decide (mode ≠ .offset)
    let a := transferAt mode (s.rop 8 rn) target
    let v := s.rop (pcOffsetBytes s.cfg.pcStoreOffset) rd
    let odd := decide (a.toNat % 2 = 1)
    let byte : Word := (s.mem.byteAt a).signExtend 32
    let half := s.mem.readSized .half a
    let size := if odd then AccessSize.byte else AccessSize.half
    (∃ t, exec (.ldrh c mode up rd rn off) s = .next t ∧
      loadsTo s t rd rn wb target (half.rotateRight (if odd then 8 else 0)) (s.readAccess .half a false false)) ∧
    (∃ t, exec (.ldrsb c mode up rd rn off) s = .next t ∧
      loadsTo s t rd rn wb target byte (s.readAccess .byte a false false)) ∧
    (∃ t, exec (.ldrsh c mode up rd rn off) s = .next t ∧
      loadsTo s t rd rn wb target (if odd then byte else (half.setWidth 16 : BitVec 16).signExtend 32)
        (s.readAccess size a false false)) ∧
    (∃ t, exec (.strh c mode up rd rn off) s = .next t ∧
      storesTo s t rn wb target .half a v (s.writeAccess .half a v false false))

/-- LDRD and STRD with an even Rd (R310, R311, decision D27): two word accesses at consecutive word addresses, the
lower first. A word with an odd Rd is another instruction, UNDEFINED (R312). The forms that the architecture calls
UNPREDICTABLE are the spec's decisions and a DESIGN CHOICE of the model (log 7): r15 as the second register loaded
(R310, U6) and as base (R284, U3), a base among the loaded registers (U6), by decision D21; r15 as the second register
stored (R311) reads by decision D5. -/
def Obligations.DoubleTransfers : Prop :=
  ∀ (s : State) (c : Cond) (mode : IndexMode) (up : Bool) (rd rn : Reg) (off : HalfOffset),
    condPass c s.cpsr = true → rd.val % 2 = 0 →
    let target := transferTarget up (s.rop 8 rn) (s.halfOffset off)
    let wb := decide (mode ≠ .offset)
    let a := transferAt mode (s.rop 8 rn) target
    let v0 := s.reg rd
    let v1 := s.rop (pcOffsetBytes s.cfg.pcStoreOffset) (rd + 1)
    (∃ t, exec (.ldrd c mode up rd rn off) s = .next t ∧
      t.reg rd = s.mem.readSized .word a ∧ t.reg (rd + 1) = s.mem.readSized .word (a + 4) ∧
      (wb = true → rn ≠ rd → rn ≠ rd + 1 → t.reg rn = target) ∧
      (∀ r, r ≠ rd → r ≠ rd + 1 → (r = rn → wb = false) → t.reg r = s.reg r) ∧
      t.flush = (s.flush || decide (rd = 14) || (wb && decide (rn = 15))) ∧ t.cpsr = s.cpsr ∧ s.sameMemory t ∧
      t.bus = s.bus ++ [s.readAccess .word a false false, s.readAccess .word (a + 4) true false] ∧
      s.sameOther t) ∧
    (∃ t, exec (.strd c mode up rd rn off) s = .next t ∧
      (∀ x : Word, t.mem.byteAt x =
        (let d := (x - alignTo .word (a + 4)).toNat
         if d < 4 then v1.extractLsb' (8 * d) 8 else storedByte s.mem .word a v0 x)) ∧
      (wb = true → t.reg rn = target) ∧ (∀ r, (r = rn → wb = false) → t.reg r = s.reg r) ∧
      t.flush = (s.flush || (wb && decide (rn = 15))) ∧ t.cpsr = s.cpsr ∧
      t.bus = s.bus ++ [s.writeAccess .word a v0 false false, s.writeAccess .word (a + 4) v1 true false] ∧
      s.sameOther t)

/-- SWP and SWPB (R315, R316, decision D23; SWPB with r15 as SWP, log 22; r15 and equal registers, U7, log 7): the
read, the write at the same address, then Rd. -/
def Obligations.Swaps : Prop :=
  ∀ (s : State) (c : Cond) (rd rm rn : Reg), condPass c s.cpsr = true →
    let a := s.rop 8 rn
    let v := s.rop (pcOffsetBytes s.cfg.pcStoreOffset) rm
    let answers := fun (i : Instr) (size : AccessSize) (data : Word) =>
      ∃ t, exec i s = .next t ∧ t.reg rd = data ∧ (∀ r, r ≠ rd → t.reg r = s.reg r) ∧
        (∀ x : Word, t.mem.byteAt x = storedByte s.mem size a v x) ∧
        t.flush = (s.flush || decide (rd = 15)) ∧ t.cpsr = s.cpsr ∧
        t.bus = s.bus ++ [s.readAccess size a false false, s.writeAccess size a v false false] ∧ s.sameOther t
    answers (.swp c rd rm rn) .word ((s.mem.readSized .word a).rotateRight (8 * (a.toNat % 4))) ∧
    answers (.swpb c rd rm rn) .byte ((s.mem.byteAt a).setWidth 32)

/-! ## Multiple transfers -/

/-- LDM without S (R331 to R334, R336; an empty list and r15 as base by decision D21, log 7): each register its
word, r15 as a branch, the written-back base unless it is loaded, everything else as before. -/
def Obligations.LoadMultiple : Prop :=
  ∀ (s : State) (c : Cond) (mode : BlockMode) (wb : Bool) (rn : Reg) (list : BitVec 16), condPass c s.cpsr = true →
    ∃ t, exec (.ldm c mode false wb rn list) s = .next t ∧ loadsBlock s t mode wb rn list ∧
      t.reg 15 = (if transferred list 15 then s.slotWord mode (s.rop 8 rn) list 15
        else if wb ∧ rn = 15 then blockBase mode (s.rop 8 rn) (listedCount list) else s.reg 15) ∧
      t.flush = (s.flush || transferred list 15 || (wb && decide (rn = 15))) ∧ t.cpsr = s.cpsr ∧
      t.mem = s.mem ∧ t.bus = s.bus ++ s.blockReads mode (s.rop 8 rn) list ∧ s.sameOther t

/-- LDM with S and r15 transferred (R339): the loads into the old mode's registers, then the return to the loaded
address. An empty list with S is DEDUCED (log 8); in a mode without an SPSR only the branch is left (decision D17 of
R34, log 7, DESIGN CHOICE). -/
def Obligations.LoadMultipleReturn : Prop :=
  ∀ (s : State) (c : Cond) (mode : BlockMode) (wb : Bool) (rn : Reg) (list : BitVec 16), condPass c s.cpsr = true →
    transferred list 15 = true →
    ∃ u, exec (.ldm c mode true wb rn list) s =
        .next (u.returnAnswer (s.slotWord mode (s.rop 8 rn) list 15)) ∧
      loadsBlock s u mode wb rn list ∧ u.cpsr = s.cpsr ∧ u.mem = s.mem ∧
      u.bus = s.bus ++ s.blockReads mode (s.rop 8 rn) list ∧ s.sameOther u

/-- LDM in the user-bank form (R337, R338): each register of the list as User mode sees it takes its word, the base is
written back in the current mode, live registers that are not the user's and every other bank stay; the mode does not
change. The writeback together with this form (R338, U4 (e)) and r15 as base, read and written back as a branch
(R341, U4 (b)), are decided by the spec (decision D21) and a DESIGN CHOICE of the model (log 7). -/
def Obligations.LoadMultipleUser : Prop :=
  ∀ (s : State) (c : Cond) (mode : BlockMode) (wb : Bool) (rn : Reg) (list : BitVec 16), condPass c s.cpsr = true →
    transferred list 15 = false →
    let taken := fun r : Reg => transferred list r = true ∧ homeOf s.cpsr.m r = homeOf modeUsr r
    ∃ t, exec (.ldm c mode true wb rn list) s = .next t ∧
      (∀ r, transferred list r = true → t.regMode modeUsr r = s.slotWord mode (s.rop 8 rn) list r) ∧
      (wb = true → ¬ taken rn → t.reg rn = blockBase mode (s.rop 8 rn) (listedCount list)) ∧
      (∀ r, ¬ taken r → (r = rn → wb = false) → t.reg r = s.reg r) ∧
      (∀ r, bankHolds .usr r = true → transferred list r = false → t.shadow .usr r = s.shadow .usr r) ∧
      t.bankFiq = s.bankFiq ∧ t.bankIrq = s.bankIrq ∧ t.bankSvc = s.bankSvc ∧ t.bankAbt = s.bankAbt ∧
      t.bankUnd = s.bankUnd ∧ t.flush = (s.flush || (wb && decide (rn = 15))) ∧ t.cpsr = s.cpsr ∧
      t.mem = s.mem ∧ t.bus = s.bus ++ s.blockReads mode (s.rop 8 rn) list ∧ s.sameSpsrs t ∧ s.sameRest t

/-- STM, with and without S (R331 to R333, R338; a stored base by decision D19, a banked base that is not written back
by log 24, DEDUCED; r15 by D5; an empty list, r15 as base and the user bank with writeback by D21, log 7): the words
at ascending addresses, every other byte as before, the base written back. The first clause is the table of R331 with
the counts of R340, which the statements about LDM use too: the number of registers, the lowest address and the
written-back value of the four variants. -/
def Obligations.StoreMultiple : Prop :=
  (∀ (base : Word) (list : BitVec 16),
    let n := listedCount list
    let size := BitVec.ofNat 32 (4 * n)
    n = (if list = 0 then 16 else ((List.range 16).filter fun k => list.getLsbD k).length) ∧
    blockStart .ia base n = base ∧ blockStart .ib base n = base + 4 ∧
    blockStart .da base n = base - size + 4 ∧ blockStart .db base n = base - size ∧
    blockBase .ia base n = base + size ∧ blockBase .ib base n = base + size ∧
    blockBase .da base n = base - size ∧ blockBase .db base n = base - size ∧
    (list = 0 → blockStart .da base n = base - 0x3C ∧ blockStart .db base n = base - 0x40 ∧
      blockBase .ib base n = base + 0x40 ∧ blockBase .da base n = base - 0x40)) ∧
  ∀ (s : State) (c : Cond) (mode : BlockMode) (sb wb : Bool) (rn : Reg) (list : BitVec 16),
    condPass c s.cpsr = true →
    let value := s.storedWord sb wb mode rn list
    ∃ t, exec (.stm c mode sb wb rn list) s = .next t ∧
      storesBlock s.mem t.mem mode (s.rop 8 rn) list value ∧
      (wb = true → t.reg rn = blockBase mode (s.rop 8 rn) (listedCount list)) ∧
      (∀ r, (r = rn → wb = false) → t.reg r = s.reg r) ∧
      t.flush = (s.flush || (wb && decide (rn = 15))) ∧ t.cpsr = s.cpsr ∧
      t.bus = s.bus ++ s.blockWrites mode (s.rop 8 rn) list value ∧ s.sameOther t

/-! ## Status registers -/

/-- A status word as software sees it (R27, R36, decisions D3 and D16): every field at its bits, the reserved bits 0;
the fields survive packing, and any word survives but for the reserved bits. -/
def Obligations.StatusWordImage : Prop :=
  (∀ p : Psr,
    (packPsr p).getLsbD 31 = p.n ∧ (packPsr p).getLsbD 30 = p.z ∧ (packPsr p).getLsbD 29 = p.c ∧
    (packPsr p).getLsbD 28 = p.v ∧ (packPsr p).getLsbD 27 = p.q ∧ (packPsr p).extractLsb' 8 19 = 0 ∧
    (packPsr p).getLsbD 7 = p.i ∧ (packPsr p).getLsbD 6 = p.f ∧ (packPsr p).getLsbD 5 = p.t ∧
    (packPsr p).extractLsb' 0 5 = p.m) ∧
  (∀ p : Psr, unpackPsr (packPsr p) = p) ∧ ∀ w : Word, packPsr (unpackPsr w) = w &&& 0xF80000FF#32

/-- MRS (R375): the word of CPSR, or of the current mode's SPSR; bits 26:8 of it are zero; nothing else changes. Two
cases are the spec's decisions and a DESIGN CHOICE of the model (log 7): a mode without an SPSR gives CPSR (U2,
decision D17 of R34), and r15 as destination is a branch (U16, decision D21). -/
def Obligations.MrsResults : Prop :=
  ∀ (s : State) (c : Cond) (rd : Reg), condPass c s.cpsr = true →
    exec (.mrs c .cpsr rd) s = .next (s.writeAnswer rd (packPsr s.cpsr)) ∧
    exec (.mrs c .spsr rd) s =
      .next (s.writeAnswer rd (packPsr (match s.spsr with | none => s.cpsr | some p => p))) ∧
    ∀ p : Psr, packPsr p &&& 0x07FFFF00#32 = 0

/-- MSR to CPSR (R376, R377, decisions D16 and D25): the masked word; in a privileged mode a write of the control
field moves the banks and refetches from the next instruction, in User mode it does nothing. A value that is no mode
is written as it is (R29, decision D28, log 7, DESIGN CHOICE). -/
def Obligations.MsrCpsrResults : Prop :=
  ∀ (s : State) (c : Cond) (fields : PsrFields) (src : MsrOperand), condPass c s.cpsr = true →
    let control := fields.c && decide (s.cpsr.m ≠ modeUsr)
    let mask : Word := (if fields.f then 0xF8000000#32 else 0) ||| (if control then 0x000000DF#32 else 0)
    let new : Word := (packPsr s.cpsr &&& ~~~mask) ||| (s.msrOperand src &&& mask)
    ∃ t, exec (.msrCpsr c fields src) s = .next t ∧ packPsr t.cpsr = new ∧
      (control = false → t = { s with cpsr := t.cpsr }) ∧
      (control = true →
        t = { s.switchMode (new.extractLsb' 0 5) with
          cpsr := t.cpsr
          regs := (s.switchMode (new.extractLsb' 0 5)).regs.set 15 (s.instrAddr + 4)
          flush := true })

/-- MSR to the SPSR of the current mode (R378, with the mask of R376, decision D16): the masked word, T included;
CPSR, the registers and the pipeline stay. In a mode without an SPSR nothing changes: that case is U2, by decision D17
of R34, a DESIGN CHOICE of the model (log 7). -/
def Obligations.MsrSpsrResults : Prop :=
  ∀ (s : State) (c : Cond) (fields : PsrFields) (src : MsrOperand), condPass c s.cpsr = true →
    let mask : Word := (if fields.f then 0xF8000000#32 else 0) ||| (if fields.c then 0x000000FF#32 else 0)
    (s.spsr = none → exec (.msrSpsr c fields src) s = .next s) ∧
    ∀ p, s.spsr = some p →
      ∃ q, exec (.msrSpsr c fields src) s = .next (s.setSpsrOf (bankOf s.cpsr.m) q) ∧
        (s.setSpsrOf (bankOf s.cpsr.m) q).spsr = some q ∧
        packPsr q = (packPsr p &&& ~~~mask) ||| (s.msrOperand src &&& mask)

/-! ## The mode switch and exceptions -/

/-- The banks and SPSRs of the modes (R23, R28, R33, decisions D3 and D4): the bank and the SPSR of each of the seven
mode values; any other value takes the user bank and has no SPSR (R29, R34, decisions D28 and D17, log 7, DESIGN
CHOICE). `SwitchMode(m)` (R371): between two banks the outgoing registers go into their cells and the incoming ones
come out of theirs; M takes the value; within one bank only M changes; nothing else is written. -/
def Obligations.SwitchModeResult : Prop :=
  (bankOf 0b10000 = .usr ∧ bankOf 0b10001 = .fiq ∧ bankOf 0b10010 = .irq ∧ bankOf 0b10011 = .svc ∧
    bankOf 0b10111 = .abt ∧ bankOf 0b11011 = .und ∧ bankOf 0b11111 = .usr) ∧
  (∀ m : BitVec 5, m ∉ [0b10001#5, 0b10010#5, 0b10011#5, 0b10111#5, 0b11011#5] → bankOf m = .usr) ∧
  (∀ s : State,
    (s.cpsr.m = 0b10001 → s.spsr = some s.spsrFiq) ∧ (s.cpsr.m = 0b10010 → s.spsr = some s.spsrIrq) ∧
    (s.cpsr.m = 0b10011 → s.spsr = some s.spsrSvc) ∧ (s.cpsr.m = 0b10111 → s.spsr = some s.spsrAbt) ∧
    (s.cpsr.m = 0b11011 → s.spsr = some s.spsrUnd) ∧
    (s.cpsr.m ∉ [0b10001#5, 0b10010#5, 0b10011#5, 0b10111#5, 0b11011#5] → s.spsr = none)) ∧
  ∀ (s : State) (m : BitVec 5),
    let t := s.switchMode m
    let ob := bankOf s.cpsr.m
    let nb := bankOf m
    t = { s with cpsr := { s.cpsr with m := m }, regs := t.regs, bankUsr := t.bankUsr, bankFiq := t.bankFiq,
                 bankIrq := t.bankIrq, bankSvc := t.bankSvc, bankAbt := t.bankAbt, bankUnd := t.bankUnd } ∧
    (ob = nb → t = { s with cpsr := { s.cpsr with m := m } }) ∧
    (∀ n : Reg, n.val < 8 ∨ n.val = 15 → t.reg n = s.reg n) ∧
    (ob ≠ nb →
      (∀ n : Reg, 8 ≤ n.val → n.val ≤ 14 → t.shadow (savedInto ob n) n = s.reg n) ∧
      (∀ n : Reg, 8 ≤ n.val → n.val ≤ 14 →
        t.reg n = if savedInto ob n = savedInto nb n then s.reg n else s.shadow (savedInto nb n) n) ∧
      (∀ (b : Bank) (n : Reg), bankHolds b n = true → b ≠ savedInto ob n → t.shadow b n = s.shadow b n))

/-- Each register has one home in each mode (R23, decision D4), and a mode sees it live or in its shadow cell (R25);
every mode's view of its registers survives every mode switch (R24, R372): the banks hold what they held, in whatever
cells. A value that is no mode sees the user bank (R29, decision D28, log 7, DESIGN CHOICE). -/
def Obligations.SwitchModeKeepsEveryView : Prop :=
  (∀ (m : BitVec 5) (n : Reg),
    homeOf m n =
      if n.val ≤ 7 ∨ n.val = 15 then none
      else if n.val ≤ 12 ∧ m ≠ 0b10001 then some .usr
      else some (bankOf m)) ∧
  (∀ (s : State) (m : BitVec 5) (n : Reg),
    (homeOf m n = homeOf s.cpsr.m n → s.regMode m n = s.reg n) ∧
    (∀ b, homeOf m n = some b → homeOf s.cpsr.m n ≠ some b → s.regMode m n = s.shadow b n)) ∧
  ∀ (s : State) (m m' : BitVec 5) (n : Reg), n ≠ 15 → (s.switchMode m).regMode m' n = s.regMode m' n

/-- Taking an exception (R525), for the mode and the vector of the exception: the old CPSR in the SPSR of the mode
entered, the return address in its r14, ARM state, I set, F set by FIQ only, the condition flags as before, the pc
at the vector and the pipeline discarded; the other registers and the banks as the mode switch leaves them, the
other SPSRs and memory as before. -/
def Obligations.EnterResult : Prop :=
  ∀ (s : State) (e : Exception) (ret : Word),
    let t := s.enter e ret
    t.cpsr = { s.cpsr with t := false, i := true, f := s.cpsr.f || decide (e = .fiq), m := modeOf e } ∧
    t.spsr = some s.cpsr ∧ t.reg 14 = ret ∧ t.reg 15 = vectorOf e ∧ t.flush = true ∧
    (∀ n : Reg, n ≠ 14 → n ≠ 15 → t.reg n = (s.switchMode (modeOf e)).reg n) ∧
    (s.switchMode (modeOf e)).sameBanks t ∧
    (∀ b, b ≠ bankOf (modeOf e) → t.spsrOf b = s.spsrOf b) ∧ s.sameRest t ∧ t.mem = s.mem ∧ t.bus = s.bus

/-- SWI and the undefined instructions of both sets take their exception with the address of the next instruction as
return address (R400, R410, R496, R516), and do nothing else. -/
def Obligations.SupervisorCallsAndUndefined : Prop :=
  ∀ (s : State) (c : Cond) (imm24 : BitVec 24) (bits : BitVec 28) (imm8 : BitVec 8) (half : Half),
    (s.cpsr.t = false → condPass c s.cpsr = true →
      exec (.swi c imm24) s = .next (s.enter .supervisorCall (s.reg 15 - 4)) ∧
      exec (.undefined c bits) s = .next (s.enter .undefinedInstruction (s.reg 15 - 4))) ∧
    (s.cpsr.t = true →
      exec (.tSwi imm8) s = .next (s.enter .supervisorCall (s.reg 15 - 2)) ∧
      exec (.tUndefined half) s = .next (s.enter .undefinedInstruction (s.reg 15 - 2)))

/-- The breakpoints of both sets take the prefetch abort with A + 4 as return address (R401, R498, decision D11); the
mode and the vector of every exception (R521, decisions D10 and D11). -/
def Obligations.BreakpointsAndVectors : Prop :=
  (∀ (s : State) (c : Cond) (imm16 : BitVec 16) (imm8 : BitVec 8),
    (s.cpsr.t = false → condPass c s.cpsr = true →
      exec (.bkpt c imm16) s = .next (s.enter .prefetchAbort (s.reg 15 - 4))) ∧
    (s.cpsr.t = true → exec (.tBkpt imm8) s = .next (s.enter .prefetchAbort (s.reg 15)))) ∧
  ∀ e : Exception,
    (modeOf e).toNat = (exceptionRow e).1 ∧ (vectorOf e).toNat = (exceptionRow e).2

/-! ## Branches -/

/-- B, BL and BX of the ARM set, B and BX of the Thumb set (R390 to R392, R497, R455): A + 8 plus four times the
signed offset, A + 4 plus twice it; the link value A + 4; T from bit 0 of the register. ARM BX with r15 (R392, U16)
reads A + 8 by decision D21, a DESIGN CHOICE of the model (log 7). -/
def Obligations.BranchResults : Prop :=
  ∀ (s : State) (c : Cond) (imm24 : BitVec 24) (off11 : BitVec 11) (rm : Reg),
    (condPass c s.cpsr = true →
      let target := s.instrAddr + 8 + BitVec.ofInt 32 (4 * imm24.toInt)
      exec (.b c imm24) s = .next (s.branchAnswer target) ∧
      exec (.bl c imm24) s =
        .next (State.branchAnswer { s with regs := s.regs.set 14 (s.instrAddr + 4) } target) ∧
      exec (.bx c rm) s = .next (s.exchangeAnswer (s.rop 8 rm))) ∧
    exec (.tB off11) s = .next (s.branchAnswer (s.instrAddr + 4 + BitVec.ofInt 32 (2 * off11.toInt))) ∧
    exec (.tBx rm) s = .next (s.exchangeAnswer (s.rop 4 rm))

/-- The branches that rest on a decision of the spec: BLX of both sets (R393, R456, D1; r15 as its register by log 7),
the register read before r14 is written; the Thumb conditional branch (R495, D33); the halves of the long branch
(R510, R511, D22): the high half sets r14 and branches only if no low half follows, the low half branches to r14 plus
twice its offset. -/
def Obligations.DecidedBranchResults : Prop :=
  ∀ (s : State) (c : Cond) (rm : Reg) (soff8 : BitVec 8) (off11 : BitVec 11),
    (condPass c s.cpsr = true →
      exec (.blx c rm) s =
        .next (State.exchangeAnswer { s with regs := s.regs.set 14 (s.instrAddr + 4) } (s.rop 8 rm))) ∧
    exec (.tBlx rm) s =
      .next (State.exchangeAnswer { s with regs := s.regs.set 14 ((s.instrAddr + 2) ||| 1) } (s.rop 4 rm)) ∧
    exec (.tBCond c soff8) s =
      .next (if condPass c s.cpsr then
        s.branchAnswer (s.instrAddr + 4 + BitVec.ofInt 32 (2 * soff8.toInt)) else s) ∧
    (let v := s.instrAddr + 4 + BitVec.ofInt 32 (4096 * off11.toInt)
     let u : State := { s with regs := s.regs.set 14 v }
     exec (.tBlHigh off11) s =
       .next (if (s.slot0.toNat / 2 ^ 11) % 2 ^ 5 = 0b11111 then u else u.branchAnswer v)) ∧
    exec (.tBlLow off11) s =
      .next (State.branchAnswer { s with regs := s.regs.set 14 ((s.instrAddr + 2) ||| 1) }
        (s.reg 14 + BitVec.ofNat 32 (2 * off11.toNat)))

/-! ## The Thumb overlay -/

/-- Formats 1 to 4 are ARM instructions with S = 1 under Thumb operands (R420, R421, the "Equals" sentences of R422 to
R448): each answers, on every state, the very state that its ARM equivalent answers. -/
def Obligations.OverlayAlu : Prop :=
  ∀ (s : State) (rd rs rn : LowReg) (imm5 : BitVec 5) (imm3 : BitVec 3) (imm8 : BitVec 8),
    let d := lowReg rd
    let m := lowReg rs
    let reg := fun r : LowReg => Operand2.shiftImm .lsl 0 (lowReg r)
    let equals := fun (thumb arm : Instr) => ∃ t, exec thumb s = .next t ∧ exec arm s = .next t
    equals (.tLslImm rd rs imm5) (.mov .al true d (.shiftImm .lsl imm5 m)) ∧
    equals (.tLsrImm rd rs imm5) (.mov .al true d (.shiftImm .lsr imm5 m)) ∧
    equals (.tAsrImm rd rs imm5) (.mov .al true d (.shiftImm .asr imm5 m)) ∧
    equals (.tAddReg rd rs rn) (.add .al true d m (reg rn)) ∧
    equals (.tSubReg rd rs rn) (.sub .al true d m (reg rn)) ∧
    equals (.tAddImm3 rd rs imm3) (.add .al true d m (.imm 0 (imm3.setWidth 8))) ∧
    equals (.tSubImm3 rd rs imm3) (.sub .al true d m (.imm 0 (imm3.setWidth 8))) ∧
    equals (.tMovImm rd imm8) (.mov .al true d (.imm 0 imm8)) ∧
    equals (.tCmpImm rd imm8) (.cmp .al d (.imm 0 imm8)) ∧
    equals (.tAddImm8 rd imm8) (.add .al true d d (.imm 0 imm8)) ∧
    equals (.tSubImm8 rd imm8) (.sub .al true d d (.imm 0 imm8)) ∧
    equals (.tAnd rd rs) (.and .al true d d (reg rs)) ∧
    equals (.tEor rd rs) (.eor .al true d d (reg rs)) ∧
    equals (.tLslReg rd rs) (.mov .al true d (.shiftReg .lsl m d)) ∧
    equals (.tLsrReg rd rs) (.mov .al true d (.shiftReg .lsr m d)) ∧
    equals (.tAsrReg rd rs) (.mov .al true d (.shiftReg .asr m d)) ∧
    equals (.tAdc rd rs) (.adc .al true d d (reg rs)) ∧
    equals (.tSbc rd rs) (.sbc .al true d d (reg rs)) ∧
    equals (.tRorReg rd rs) (.mov .al true d (.shiftReg .ror m d)) ∧
    equals (.tTst rd rs) (.tst .al d (reg rs)) ∧
    equals (.tNeg rd rs) (.rsb .al true d m (.imm 0 0)) ∧
    equals (.tCmpReg rd rs) (.cmp .al d (reg rs)) ∧
    equals (.tCmn rd rs) (.cmn .al d (reg rs)) ∧
    equals (.tOrr rd rs) (.orr .al true d d (reg rs)) ∧
    equals (.tMul rd rs) (.mul .al true d m d) ∧
    equals (.tBic rd rs) (.bic .al true d d (reg rs)) ∧
    equals (.tMvn rd rs) (.mvn .al true d (reg rs))

/-- Formats 7 to 15 but the pc-relative ones are ARM transfers and additions under Thumb operands (R420, the "Equals"
sentences of R460 to R491), on every state; an empty list is the ARM empty list (R340, log 7). -/
def Obligations.OverlayTransfers : Prop :=
  ∀ (s : State) (rd rb ro : LowReg) (imm5 : BitVec 5) (imm7 : BitVec 7) (imm8 : BitVec 8) (r : Bool),
    let d := lowReg rd
    let b := lowReg rb
    let index := Offset.shifted .lsl 0 (lowReg ro)
    let halfIndex := HalfOffset.reg (lowReg ro)
    let words := Offset.imm (imm5.setWidth 12 <<< 2)
    let bytes := Offset.imm (imm5.setWidth 12)
    let halves := HalfOffset.imm (imm5.setWidth 8 <<< 1)
    let stack := Offset.imm (imm8.setWidth 12 <<< 2)
    let equals := fun (thumb arm : Instr) => ∃ t, exec thumb s = .next t ∧ exec arm s = .next t
    equals (.tStrReg rd rb ro) (.str .al .offset true d b index) ∧
    equals (.tStrbReg rd rb ro) (.strb .al .offset true d b index) ∧
    equals (.tLdrReg rd rb ro) (.ldr .al .offset true d b index) ∧
    equals (.tLdrbReg rd rb ro) (.ldrb .al .offset true d b index) ∧
    equals (.tStrhReg rd rb ro) (.strh .al .offset true d b halfIndex) ∧
    equals (.tLdsbReg rd rb ro) (.ldrsb .al .offset true d b halfIndex) ∧
    equals (.tLdrhReg rd rb ro) (.ldrh .al .offset true d b halfIndex) ∧
    equals (.tLdshReg rd rb ro) (.ldrsh .al .offset true d b halfIndex) ∧
    equals (.tStrImm rd rb imm5) (.str .al .offset true d b words) ∧
    equals (.tLdrImm rd rb imm5) (.ldr .al .offset true d b words) ∧
    equals (.tStrbImm rd rb imm5) (.strb .al .offset true d b bytes) ∧
    equals (.tLdrbImm rd rb imm5) (.ldrb .al .offset true d b bytes) ∧
    equals (.tStrhImm rd rb imm5) (.strh .al .offset true d b halves) ∧
    equals (.tLdrhImm rd rb imm5) (.ldrh .al .offset true d b halves) ∧
    equals (.tStrSp rd imm8) (.str .al .offset true d 13 stack) ∧
    equals (.tLdrSp rd imm8) (.ldr .al .offset true d 13 stack) ∧
    equals (.tAddSp rd imm8) (.add .al false d 13 (.imm 15 imm8)) ∧
    equals (.tAddSpImm imm7) (.add .al false 13 13 (.imm 15 (imm7.setWidth 8))) ∧
    equals (.tSubSpImm imm7) (.sub .al false 13 13 (.imm 15 (imm7.setWidth 8))) ∧
    equals (.tPush r imm8)
      (.stm .al .db false true 13 (imm8.setWidth 16 ||| (if r then 0x4000#16 else 0))) ∧
    equals (.tPop r imm8)
      (.ldm .al .ia false true 13 (imm8.setWidth 16 ||| (if r then 0x8000#16 else 0))) ∧
    equals (.tStmia rb imm8) (.stm .al .ia false true b (imm8.setWidth 16)) ∧
    equals (.tLdmia rb imm8) (.ldm .al .ia false true b (imm8.setWidth 16))

/-- The hi-register operations and the pc-relative forms (R452, R453, R454, R458, R478) in Thumb state, where r15
reads as A + 4 (decision D5), that is as the fetch address: ADD and MOV without flags and with r15 as a branch, CMP
with the four flags, the load and the address from the pc aligned to 4. Two low registers (R450, U16) run as the rules
say by decision D33, a DESIGN CHOICE of the model (log 7). -/
def Obligations.ThumbHiAndPcRelative : Prop :=
  ∀ (s : State) (rd rs : Reg) (lo : LowReg) (imm8 : BitVec 8), s.cpsr.t = true →
    let a := s.reg rd
    let b := s.reg rs
    let at4 := BitVec.ofNat 32 ((s.reg 15).toNat / 4 * 4 + 4 * imm8.toNat)
    exec (.tAddHi rd rs) s = .next (s.writeAnswer rd (a + b)) ∧
    exec (.tCmpHi rd rs) s =
      .next (s.flagAnswer (a - b) (decide (b.toNat ≤ a.toNat)) (!fits32 (a.toInt - b.toInt))) ∧
    exec (.tMovHi rd rs) s = .next (s.writeAnswer rd b) ∧
    (∃ t, exec (.tLdrPc lo imm8) s = .next t ∧
      loadsTo s t (lowReg lo) 0 false at4 (s.mem.readSized .word at4) (s.readAccess .word at4 false false)) ∧
    exec (.tAddPc lo imm8) s = .next { s with regs := s.regs.set (lowReg lo) at4 }

/-! ## Whole-machine rules -/

/-- In User mode no instruction but one that raises an exception changes I, F, the mode, or any SPSR (R35, R379). -/
def Obligations.UserModeCannotChangeControl : Prop :=
  ∀ (i : Instr) (s t : State), s.cpsr.m = modeUsr → raisedBy i = none → exec i s = .next t →
    t.cpsr.i = s.cpsr.i ∧ t.cpsr.f = s.cpsr.f ∧ t.cpsr.m = s.cpsr.m ∧ s.sameSpsrs t

/-- T changes only with BX or BLX, an exception, or a copy of an SPSR, and never without a pipeline discard (R32). LDM
with S and an empty list counts as such a copy (log 8, DEDUCED). -/
def Obligations.TChangesOnlyWithDiscard : Prop :=
  ∀ (i : Instr) (s t : State), exec i s = .next t → t.cpsr.t ≠ s.cpsr.t →
    t.flush = true ∧ (exchanges i = true ∨ raisedBy i ≠ none ∨ copiesSpsr i = true)

/-- An SPSR is written only by exception entry and by MSR with R = 1 (R33), and by either only that of the mode the
instruction ends in; a copy of an SPSR to CPSR writes none. LDM with S and an empty list counts as such a copy
(log 8, DEDUCED). -/
def Obligations.SpsrWrittenOnlyByEntryOrMsr : Prop :=
  ∀ (i : Instr) (s t : State), exec i s = .next t →
    (s.sameSpsrs t ∨ raisedBy i ≠ none ∨ ∃ c fields src, i = .msrSpsr c fields src) ∧
    ∀ b, b ≠ bankOf t.cpsr.m ∨ copiesSpsr i = true → t.spsrOf b = s.spsrOf b

/-- Only the stores write memory (R60, R75), and no instruction writes what belongs to the step or the environment:
the slots, the halted flag, the cycles, the interrupt inputs (R413, R568). -/
def Obligations.MemoryWrittenOnlyByStores : Prop :=
  ∀ (i : Instr) (s t : State), exec i s = .next t →
    (storesMemory i = false → t.mem = s.mem) ∧ s.sameRest t

/-- The shadow banks move only with a mode switch, by one of the four mechanisms that run one, and by LDM in the
user-bank form (R24, R374). LDM with S and an empty list counts as a copy of an SPSR (log 8, DEDUCED). -/
def Obligations.BanksMoveOnlyByModeSwitch : Prop :=
  ∀ (i : Instr) (s t : State), exec i s = .next t →
    s.sameBanks t ∨ raisedBy i ≠ none ∨ copiesSpsr i = true ∨ loadsUserBank i = true ∨
      ∃ c fields src, i = .msrCpsr c fields src ∧ fields.c = true

/-! ## Memory -/

/-- A sized read after a sized write at one address (R64, R65, decisions D8 and D9): the access is at the greatest
multiple of its size not above the address; the low bytes of the value are read; every byte, inside and outside, is
the little-endian one; the canonical form is kept (the model's form, log 2). -/
def Obligations.SizedReadAfterWrite : Prop :=
  ∀ (m : Memory) (size : AccessSize) (a v : Word),
    (alignTo size a).toNat = a.toNat / sizeBytes size * sizeBytes size ∧
    (sizeBytes .byte = 1 ∧ sizeBytes .half = 2 ∧ sizeBytes .word = 4) ∧
    (m.writeSized size a v).readSized size a = BitVec.ofNat 32 (v.toNat % 256 ^ sizeBytes size) ∧
    (∀ x : Word, (m.writeSized size a v).byteAt x = storedByte m size a v x) ∧
    (m.wf = true → (m.writeSized size a v).wf = true)

/-- Two memories in canonical form that read alike at every address are equal (the model's form of memory,
assumption log 2). -/
def Obligations.CanonicalMemoryIsUnique : Prop :=
  ∀ m m' : Memory, m.wf = true → m'.wf = true → (∀ a : Word, m.byteAt a = m'.byteAt a) → m = m'

end
end

