-- ==== Sys2Proof/Laws/Bits.lean ====
section
/-! SUPPORT. Alignment and sums: an aligned address stays aligned under the instruction width. -/

namespace Sys2Proof.Machine

theorem align4_getLsbD (v : Word) (i : Nat) : (align4 v).getLsbD i = (v.getLsbD i && decide (2 ≤ i)) := by
  unfold align4
  rw [BitVec.getLsbD_and]
  by_cases h : i < 32
  · have : ∀ j : Fin 32, (0xFFFFFFFC#32).getLsbD j.val = decide (2 ≤ j.val) := by decide
    rw [this ⟨i, h⟩]
  · simp [BitVec.getLsbD_of_ge v i (by omega)]

theorem align2_getLsbD (v : Word) (i : Nat) : (align2 v).getLsbD i = (v.getLsbD i && decide (1 ≤ i)) := by
  unfold align2
  rw [BitVec.getLsbD_and]
  by_cases h : i < 32
  · have : ∀ j : Fin 32, (0xFFFFFFFE#32).getLsbD j.val = decide (1 ≤ j.val) := by decide
    rw [this ⟨i, h⟩]
  · simp [BitVec.getLsbD_of_ge v i (by omega)]

theorem align4_eq_self (v : Word) : align4 v = v ↔ v.setWidth 2 = 0#2 := by
  constructor
  · intro h
    rw [← h]
    apply BitVec.eq_of_getLsbD_eq
    intro i hi
    simp [BitVec.getLsbD_setWidth, align4_getLsbD]
    omega
  · intro h
    apply BitVec.eq_of_getLsbD_eq
    intro i _
    rw [align4_getLsbD]
    by_cases hi : 2 ≤ i
    · simp [hi]
    · have := congrArg (fun x => BitVec.getLsbD x i) h
      simp only [BitVec.getLsbD_setWidth, BitVec.getLsbD_zero] at this
      simp at this
      simp [this (by omega)]

theorem align2_eq_self (v : Word) : align2 v = v ↔ v.setWidth 1 = 0#1 := by
  constructor
  · intro h
    rw [← h]
    apply BitVec.eq_of_getLsbD_eq
    intro i hi
    simp [BitVec.getLsbD_setWidth, align2_getLsbD]
    omega
  · intro h
    apply BitVec.eq_of_getLsbD_eq
    intro i _
    rw [align2_getLsbD]
    by_cases hi : 1 ≤ i
    · simp [hi]
    · have := congrArg (fun x => BitVec.getLsbD x i) h
      simp only [BitVec.getLsbD_setWidth, BitVec.getLsbD_zero] at this
      simp at this
      simp [this (by omega)]

theorem align4_align4 (v : Word) : align4 (align4 v) = align4 v := by
  apply BitVec.eq_of_getLsbD_eq
  intro i _
  simp [align4_getLsbD]

theorem align2_align2 (v : Word) : align2 (align2 v) = align2 v := by
  apply BitVec.eq_of_getLsbD_eq
  intro i _
  simp [align2_getLsbD]

theorem alignWidth_idem (t : Bool) (v : Word) : alignWidth t (alignWidth t v) = alignWidth t v := by
  cases t
  · exact align4_align4 v
  · exact align2_align2 v

/-- Adding a multiple of the width keeps an aligned address aligned. -/
theorem alignWidth_add (t : Bool) (v w : Word) (hv : alignWidth t v = v) (hw : alignWidth t w = w) :
    alignWidth t (v + w) = v + w := by
  cases t
  · simp only [alignWidth, Bool.false_eq_true, ↓reduceIte] at *
    rw [align4_eq_self] at *
    rw [BitVec.setWidth_add _ _ (by decide), hv, hw]; rfl
  · simp only [alignWidth, ↓reduceIte] at *
    rw [align2_eq_self] at *
    rw [BitVec.setWidth_add _ _ (by decide), hv, hw]; rfl

theorem alignWidth_width (t : Bool) : alignWidth t (widthOf t) = widthOf t := by
  cases t <;> decide

theorem alignWidth_two_width (t : Bool) : alignWidth t (2 * widthOf t) = 2 * widthOf t := by
  cases t <;> decide

end Sys2Proof.Machine
end

