-- ==== Sys2Proof/Laws/Decode.lean ====
section
/-! SUPPORT. The fields of a word and the word of fields are inverse to each other; the small fields too. -/

namespace Sys2Proof

theorem append_extract_hi {n m : Nat} (a : BitVec n) (b : BitVec m) :
    (a ++ b).extractLsb' m n = a := by
  apply BitVec.eq_of_getLsbD_eq
  intro i hi
  rw [BitVec.getLsbD_extractLsb', BitVec.getLsbD_append]
  simp [hi]

theorem append_extract_lo {n m : Nat} (a : BitVec n) (b : BitVec m) (k l : Nat) (h : k + l ≤ m) :
    (a ++ b).extractLsb' k l = b.extractLsb' k l := by
  apply BitVec.eq_of_getLsbD_eq
  intro i hi
  rw [BitVec.getLsbD_extractLsb', BitVec.getLsbD_extractLsb', BitVec.getLsbD_append]
  simp [hi, show k + i < m by omega]

theorem append_extract_up {n m : Nat} (a : BitVec n) (b : BitVec m) (k l j : Nat) (h : k = m + j) :
    (a ++ b).extractLsb' k l = a.extractLsb' j l := by
  subst h
  apply BitVec.eq_of_getLsbD_eq
  intro i hi
  rw [BitVec.getLsbD_extractLsb', BitVec.getLsbD_extractLsb', BitVec.getLsbD_append]
  simp [hi, show ¬ m + j + i < m by omega, show m + j + i - m = j + i by omega]

/-- The fields of a joined word are the fields. -/
theorem splitArm_joinArm (f : ArmFields) : splitArm (joinArm f) = f := by
  obtain ⟨cond, op, rn, rd, rs, sh, rm⟩ := f
  have e : ∀ k l, (joinArm ⟨cond, op, rn, rd, rs, sh, rm⟩).extractLsb' k l =
      (cond ++ (op ++ rn ++ rd ++ rs ++ sh ++ rm : BitVec 28)).extractLsb' k l := fun _ _ => rfl
  unfold splitArm
  simp only [e]
  congr 1
  · exact append_extract_hi (m := 28) cond _
  · rw [append_extract_lo (n := 4) (m := 28) _ _ _ _ (by decide),
      append_extract_up (n := 24) (m := 4) _ _ _ _ 16 rfl, append_extract_up (n := 20) (m := 4) _ _ _ _ 12 rfl,
      append_extract_up (n := 16) (m := 4) _ _ _ _ 8 rfl, append_extract_up (n := 12) (m := 4) _ _ _ _ 4 rfl]
    exact append_extract_hi op rn
  · rw [append_extract_lo (n := 4) (m := 28) _ _ _ _ (by decide),
      append_extract_up (n := 24) (m := 4) _ _ _ _ 12 rfl, append_extract_up (n := 20) (m := 4) _ _ _ _ 8 rfl,
      append_extract_up (n := 16) (m := 4) _ _ _ _ 4 rfl, append_extract_up (n := 12) (m := 4) _ _ _ _ 0 rfl,
      append_extract_lo (n := 8) (m := 4) _ _ _ _ (by decide)]
    simp
  · rw [append_extract_lo (n := 4) (m := 28) _ _ _ _ (by decide),
      append_extract_up (n := 24) (m := 4) _ _ _ _ 8 rfl, append_extract_up (n := 20) (m := 4) _ _ _ _ 4 rfl,
      append_extract_up (n := 16) (m := 4) _ _ _ _ 0 rfl, append_extract_lo (n := 12) (m := 4) _ _ _ _ (by decide)]
    simp
  · rw [append_extract_lo (n := 4) (m := 28) _ _ _ _ (by decide),
      append_extract_up (n := 24) (m := 4) _ _ _ _ 4 rfl, append_extract_up (n := 20) (m := 4) _ _ _ _ 0 rfl,
      append_extract_lo (n := 16) (m := 4) _ _ _ _ (by decide)]
    simp
  · rw [append_extract_lo (n := 4) (m := 28) _ _ _ _ (by decide),
      append_extract_up (n := 24) (m := 4) _ _ _ _ 0 rfl, append_extract_lo (n := 20) (m := 4) _ _ _ _ (by decide)]
    simp
  · rw [append_extract_lo (n := 4) (m := 28) _ _ _ _ (by decide),
      append_extract_lo (n := 24) (m := 4) _ _ _ _ (by decide)]
    simp

/-- The fields of a joined halfword are the fields. -/
theorem splitThumb_joinThumb (f : ThumbFields) : splitThumb (joinThumb f) = f := by
  obtain ⟨top, mid, low, rs, rd⟩ := f
  have e : ∀ k l, (joinThumb ⟨top, mid, low, rs, rd⟩).extractLsb' k l =
      (top ++ mid ++ low ++ rs ++ rd : BitVec 16).extractLsb' k l := fun _ _ => rfl
  unfold splitThumb
  simp only [e]
  congr 1
  · rw [append_extract_up (n := 13) (m := 3) _ _ _ _ 8 rfl, append_extract_up (n := 10) (m := 3) _ _ _ _ 5 rfl,
      append_extract_up (n := 8) (m := 2) _ _ _ _ 3 rfl]
    exact append_extract_hi top mid
  · rw [append_extract_up (n := 13) (m := 3) _ _ _ _ 5 rfl, append_extract_up (n := 10) (m := 3) _ _ _ _ 2 rfl,
      append_extract_up (n := 8) (m := 2) _ _ _ _ 0 rfl, append_extract_lo (n := 5) (m := 3) _ _ _ _ (by decide)]
    simp
  · rw [append_extract_up (n := 13) (m := 3) _ _ _ _ 3 rfl, append_extract_up (n := 10) (m := 3) _ _ _ _ 0 rfl,
      append_extract_lo (n := 8) (m := 2) _ _ _ _ (by decide)]
    simp
  · rw [append_extract_up (n := 13) (m := 3) _ _ _ _ 0 rfl, append_extract_lo (n := 10) (m := 3) _ _ _ _ (by decide)]
    simp
  · rw [append_extract_lo (n := 13) (m := 3) _ _ _ _ (by decide)]
    simp

@[simp] theorem condOfBits_bits (c : Cond) : Cond.ofBits c.bits = c := by cases c <;> rfl

@[simp] theorem regOfBits_bits (r : Reg) : Reg.ofBits (Reg.bits r) = r := rfl

@[simp] theorem lowRegOfBits_bits (r : LowReg) : LowReg.ofBits (LowReg.bits r) = r := rfl

end Sys2Proof
end

