-- ==== Sys2Proof/Laws/Memory.lean ====
section
/-! SUPPORT. Memory: a read after a write, and the canonical form, which every memory operation keeps. -/

namespace Sys2Proof.Machine

theorem read_erase (m : Memory) (a a' : Nat) :
    (m.erase a).read a' = if a' = a then Config.unlistedByte else m.read a' := by
  induction m with
  | nil => simp [Memory.erase, Memory.read]
  | cons cell rest ih =>
    unfold Memory.erase
    by_cases h : cell.1 = a
    · simp only [h, ↓reduceIte, ih, Memory.read]
      by_cases h' : a' = a
      · simp [h']
      · simp [h', Ne.symm h']
    · simp only [h, ↓reduceIte, Memory.read, ih]
      by_cases h' : cell.1 = a'
      · subst h'; simp [h]
      · simp [h']

theorem read_insert (m : Memory) (a a' : Nat) (b : Byte) :
    (m.insert a b).read a' = if a' = a then (if m.read a = Config.unlistedByte then b else
      (m.insert a b).read a) else m.read a' := by
  by_cases h : a' = a
  · subst h
    simp only [↓reduceIte]
    split
    · rename_i hr
      induction m with
      | nil => simp [Memory.insert, Memory.read]
      | cons cell rest ih =>
        unfold Memory.insert
        split
        · rename_i hlt
          have hne : ¬ cell.1 = a' := by omega
          simp only [Memory.read, hne, ↓reduceIte] at hr ⊢
          exact ih hr
        · simp [Memory.read]
    · rfl
  · simp only [h, ↓reduceIte]
    induction m with
    | nil => simp [Memory.insert, Memory.read, Ne.symm h]
    | cons cell rest ih =>
      unfold Memory.insert
      split
      · simp only [Memory.read, ih]
      · simp [Memory.read, Ne.symm h]

/-- A byte read after a write. -/
@[simp] theorem read_write (m : Memory) (a a' : Nat) (b : Byte) :
    (m.write a b).read a' = if a' = a then b else m.read a' := by
  unfold Memory.write
  split
  · rename_i hb
    rw [read_erase, hb]
  · rw [read_insert]
    by_cases h : a' = a
    · simp [h, read_erase]
    · simp [h, read_erase]

/-! ## The canonical form -/

theorem wfFrom_mono {lo lo' : Nat} {m : Memory} (hle : lo' ≤ lo) (h : m.wfFrom lo = true) :
    m.wfFrom lo' = true := by
  cases m with
  | nil => rfl
  | cons cell rest =>
    simp only [Memory.wfFrom, Bool.and_eq_true, decide_eq_true_eq] at h ⊢
    exact ⟨⟨⟨by omega, h.1.1.2⟩, h.1.2⟩, h.2⟩

theorem wfFrom_erase {m : Memory} (a : Nat) : ∀ {lo : Nat}, m.wfFrom lo = true → (m.erase a).wfFrom lo = true := by
  induction m with
  | nil => intro lo _; rfl
  | cons cell rest ih =>
    intro lo h
    simp only [Memory.wfFrom, Bool.and_eq_true, decide_eq_true_eq] at h
    unfold Memory.erase
    split
    · exact wfFrom_mono (by omega) (ih h.2)
    · simp only [Memory.wfFrom, Bool.and_eq_true, decide_eq_true_eq]
      exact ⟨h.1, ih h.2⟩

theorem wfFrom_insert {m : Memory} {a : Nat} {b : Byte} (ha : a < 2 ^ 32) (hb : b ≠ Config.unlistedByte) :
    ∀ {lo : Nat}, lo ≤ a → (m.erase a).wfFrom lo = true → ((m.erase a).insert a b).wfFrom lo = true := by
  have key : ∀ (m : Memory), (∀ c ∈ m, c.1 ≠ a) → ∀ lo, lo ≤ a → m.wfFrom lo = true →
      (m.insert a b).wfFrom lo = true := by
    intro m
    induction m with
    | nil => intro _ lo hlo _; simp [Memory.insert, Memory.wfFrom, hlo, hb]; omega
    | cons cell rest ih =>
      intro hne lo hlo h
      simp only [Memory.wfFrom, Bool.and_eq_true, decide_eq_true_eq] at h
      have hc : cell.1 ≠ a := hne cell (by simp)
      unfold Memory.insert
      split
      · simp only [Memory.wfFrom, Bool.and_eq_true, decide_eq_true_eq]
        exact ⟨h.1, ih (fun c hc' => hne c (by simp [hc'])) _ (by omega) h.2⟩
      · simp only [Memory.wfFrom, Bool.and_eq_true, decide_eq_true_eq]
        refine ⟨⟨⟨hlo, ha⟩, by simpa using hb⟩, ⟨⟨by omega, h.1.1.2⟩, h.1.2⟩, h.2⟩
  intro lo hlo h
  refine key _ ?_ lo hlo h
  clear h hlo
  induction m with
  | nil => simp [Memory.erase]
  | cons cell rest ih =>
    unfold Memory.erase
    split
    · exact ih
    · intro c hc
      rcases List.mem_cons.mp hc with rfl | hc
      · assumption
      · exact ih c hc

/-- A write below 2^32 keeps the canonical form. -/
theorem wf_write {m : Memory} {a : Nat} {b : Byte} (ha : a < 2 ^ 32) (h : m.wf = true) :
    (m.write a b).wf = true := by
  unfold Memory.write
  split
  · exact wfFrom_erase a h
  · rename_i hb
    exact wfFrom_insert ha hb (Nat.zero_le a) (wfFrom_erase a h)

/-- Every sized write keeps the canonical form. -/
theorem wf_writeSized {m : Memory} (z : AccessSize) (a v : Word) (h : m.wf = true) :
    (m.writeSized z a v).wf = true := by
  unfold Memory.writeSized
  cases z
  · exact wf_write (BitVec.isLt _) h
  · exact wf_write (BitVec.isLt _) (wf_write (BitVec.isLt _) h)
  · exact wf_write (BitVec.isLt _) (wf_write (BitVec.isLt _) (wf_write (BitVec.isLt _)
      (wf_write (BitVec.isLt _) h)))

end Sys2Proof.Machine
end

