-- ==== Sys2Proof/Laws/State.lean ====
section
/-! SUPPORT. What each update of State leaves in each field, one lemma per field, so that no later proof unfolds a
record update. The lemmas of an update that chooses among banks list the fields it leaves alone. -/

namespace Sys2Proof.Machine

variable (s : State)

/-! ## Plain updates -/

@[simp] theorem setReg_cfg (r : Reg) (v : Word) : (s.setReg r v).cfg = s.cfg := rfl
@[simp] theorem setReg_regs (r : Reg) (v : Word) : (s.setReg r v).regs = s.regs.set r v := rfl
@[simp] theorem setReg_bankUsr (r : Reg) (v : Word) : (s.setReg r v).bankUsr = s.bankUsr := rfl
@[simp] theorem setReg_bankFiq (r : Reg) (v : Word) : (s.setReg r v).bankFiq = s.bankFiq := rfl
@[simp] theorem setReg_bankIrq (r : Reg) (v : Word) : (s.setReg r v).bankIrq = s.bankIrq := rfl
@[simp] theorem setReg_bankSvc (r : Reg) (v : Word) : (s.setReg r v).bankSvc = s.bankSvc := rfl
@[simp] theorem setReg_bankAbt (r : Reg) (v : Word) : (s.setReg r v).bankAbt = s.bankAbt := rfl
@[simp] theorem setReg_bankUnd (r : Reg) (v : Word) : (s.setReg r v).bankUnd = s.bankUnd := rfl
@[simp] theorem setReg_cpsr (r : Reg) (v : Word) : (s.setReg r v).cpsr = s.cpsr := rfl
@[simp] theorem setReg_spsrFiq (r : Reg) (v : Word) : (s.setReg r v).spsrFiq = s.spsrFiq := rfl
@[simp] theorem setReg_spsrIrq (r : Reg) (v : Word) : (s.setReg r v).spsrIrq = s.spsrIrq := rfl
@[simp] theorem setReg_spsrSvc (r : Reg) (v : Word) : (s.setReg r v).spsrSvc = s.spsrSvc := rfl
@[simp] theorem setReg_spsrAbt (r : Reg) (v : Word) : (s.setReg r v).spsrAbt = s.spsrAbt := rfl
@[simp] theorem setReg_spsrUnd (r : Reg) (v : Word) : (s.setReg r v).spsrUnd = s.spsrUnd := rfl
@[simp] theorem setReg_slot0 (r : Reg) (v : Word) : (s.setReg r v).slot0 = s.slot0 := rfl
@[simp] theorem setReg_slot1 (r : Reg) (v : Word) : (s.setReg r v).slot1 = s.slot1 := rfl
@[simp] theorem setReg_flush (r : Reg) (v : Word) : (s.setReg r v).flush = s.flush := rfl
@[simp] theorem setReg_halted (r : Reg) (v : Word) : (s.setReg r v).halted = s.halted := rfl
@[simp] theorem setReg_cycles (r : Reg) (v : Word) : (s.setReg r v).cycles = s.cycles := rfl
@[simp] theorem setReg_pending (r : Reg) (v : Word) : (s.setReg r v).pending = s.pending := rfl
@[simp] theorem setReg_fiqLine (r : Reg) (v : Word) : (s.setReg r v).fiqLine = s.fiqLine := rfl
@[simp] theorem setReg_mem (r : Reg) (v : Word) : (s.setReg r v).mem = s.mem := rfl
@[simp] theorem setReg_bus (r : Reg) (v : Word) : (s.setReg r v).bus = s.bus := rfl
@[simp] theorem setReg_freeIdx (r : Reg) (v : Word) : (s.setReg r v).freeIdx = s.freeIdx := rfl

@[simp] theorem setCpsr_cfg (p : Psr) : (s.setCpsr p).cfg = s.cfg := rfl
@[simp] theorem setCpsr_regs (p : Psr) : (s.setCpsr p).regs = s.regs := rfl
@[simp] theorem setCpsr_bankUsr (p : Psr) : (s.setCpsr p).bankUsr = s.bankUsr := rfl
@[simp] theorem setCpsr_bankFiq (p : Psr) : (s.setCpsr p).bankFiq = s.bankFiq := rfl
@[simp] theorem setCpsr_bankIrq (p : Psr) : (s.setCpsr p).bankIrq = s.bankIrq := rfl
@[simp] theorem setCpsr_bankSvc (p : Psr) : (s.setCpsr p).bankSvc = s.bankSvc := rfl
@[simp] theorem setCpsr_bankAbt (p : Psr) : (s.setCpsr p).bankAbt = s.bankAbt := rfl
@[simp] theorem setCpsr_bankUnd (p : Psr) : (s.setCpsr p).bankUnd = s.bankUnd := rfl
@[simp] theorem setCpsr_cpsr (p : Psr) : (s.setCpsr p).cpsr = p := rfl
@[simp] theorem setCpsr_spsrFiq (p : Psr) : (s.setCpsr p).spsrFiq = s.spsrFiq := rfl
@[simp] theorem setCpsr_spsrIrq (p : Psr) : (s.setCpsr p).spsrIrq = s.spsrIrq := rfl
@[simp] theorem setCpsr_spsrSvc (p : Psr) : (s.setCpsr p).spsrSvc = s.spsrSvc := rfl
@[simp] theorem setCpsr_spsrAbt (p : Psr) : (s.setCpsr p).spsrAbt = s.spsrAbt := rfl
@[simp] theorem setCpsr_spsrUnd (p : Psr) : (s.setCpsr p).spsrUnd = s.spsrUnd := rfl
@[simp] theorem setCpsr_slot0 (p : Psr) : (s.setCpsr p).slot0 = s.slot0 := rfl
@[simp] theorem setCpsr_slot1 (p : Psr) : (s.setCpsr p).slot1 = s.slot1 := rfl
@[simp] theorem setCpsr_flush (p : Psr) : (s.setCpsr p).flush = s.flush := rfl
@[simp] theorem setCpsr_halted (p : Psr) : (s.setCpsr p).halted = s.halted := rfl
@[simp] theorem setCpsr_cycles (p : Psr) : (s.setCpsr p).cycles = s.cycles := rfl
@[simp] theorem setCpsr_pending (p : Psr) : (s.setCpsr p).pending = s.pending := rfl
@[simp] theorem setCpsr_fiqLine (p : Psr) : (s.setCpsr p).fiqLine = s.fiqLine := rfl
@[simp] theorem setCpsr_mem (p : Psr) : (s.setCpsr p).mem = s.mem := rfl
@[simp] theorem setCpsr_bus (p : Psr) : (s.setCpsr p).bus = s.bus := rfl
@[simp] theorem setCpsr_freeIdx (p : Psr) : (s.setCpsr p).freeIdx = s.freeIdx := rfl

@[simp] theorem setPc_cfg (v : Word) : (s.setPc v).cfg = s.cfg := rfl
@[simp] theorem setPc_regs (v : Word) : (s.setPc v).regs = s.regs.set 15 v := rfl
@[simp] theorem setPc_bankUsr (v : Word) : (s.setPc v).bankUsr = s.bankUsr := rfl
@[simp] theorem setPc_bankFiq (v : Word) : (s.setPc v).bankFiq = s.bankFiq := rfl
@[simp] theorem setPc_bankIrq (v : Word) : (s.setPc v).bankIrq = s.bankIrq := rfl
@[simp] theorem setPc_bankSvc (v : Word) : (s.setPc v).bankSvc = s.bankSvc := rfl
@[simp] theorem setPc_bankAbt (v : Word) : (s.setPc v).bankAbt = s.bankAbt := rfl
@[simp] theorem setPc_bankUnd (v : Word) : (s.setPc v).bankUnd = s.bankUnd := rfl
@[simp] theorem setPc_cpsr (v : Word) : (s.setPc v).cpsr = s.cpsr := rfl
@[simp] theorem setPc_spsrFiq (v : Word) : (s.setPc v).spsrFiq = s.spsrFiq := rfl
@[simp] theorem setPc_spsrIrq (v : Word) : (s.setPc v).spsrIrq = s.spsrIrq := rfl
@[simp] theorem setPc_spsrSvc (v : Word) : (s.setPc v).spsrSvc = s.spsrSvc := rfl
@[simp] theorem setPc_spsrAbt (v : Word) : (s.setPc v).spsrAbt = s.spsrAbt := rfl
@[simp] theorem setPc_spsrUnd (v : Word) : (s.setPc v).spsrUnd = s.spsrUnd := rfl
@[simp] theorem setPc_slot0 (v : Word) : (s.setPc v).slot0 = s.slot0 := rfl
@[simp] theorem setPc_slot1 (v : Word) : (s.setPc v).slot1 = s.slot1 := rfl
@[simp] theorem setPc_flush (v : Word) : (s.setPc v).flush = true := rfl
@[simp] theorem setPc_halted (v : Word) : (s.setPc v).halted = s.halted := rfl
@[simp] theorem setPc_cycles (v : Word) : (s.setPc v).cycles = s.cycles := rfl
@[simp] theorem setPc_pending (v : Word) : (s.setPc v).pending = s.pending := rfl
@[simp] theorem setPc_fiqLine (v : Word) : (s.setPc v).fiqLine = s.fiqLine := rfl
@[simp] theorem setPc_mem (v : Word) : (s.setPc v).mem = s.mem := rfl
@[simp] theorem setPc_bus (v : Word) : (s.setPc v).bus = s.bus := rfl
@[simp] theorem setPc_freeIdx (v : Word) : (s.setPc v).freeIdx = s.freeIdx := rfl

@[simp] theorem noteRead_cfg (z : AccessSize) (a : Word) (q f : Bool) : (s.noteRead z a q f).cfg = s.cfg := rfl
@[simp] theorem noteRead_regs (z : AccessSize) (a : Word) (q f : Bool) : (s.noteRead z a q f).regs = s.regs := rfl
@[simp] theorem noteRead_bankUsr (z : AccessSize) (a : Word) (q f : Bool) : (s.noteRead z a q f).bankUsr = s.bankUsr := rfl
@[simp] theorem noteRead_bankFiq (z : AccessSize) (a : Word) (q f : Bool) : (s.noteRead z a q f).bankFiq = s.bankFiq := rfl
@[simp] theorem noteRead_bankIrq (z : AccessSize) (a : Word) (q f : Bool) : (s.noteRead z a q f).bankIrq = s.bankIrq := rfl
@[simp] theorem noteRead_bankSvc (z : AccessSize) (a : Word) (q f : Bool) : (s.noteRead z a q f).bankSvc = s.bankSvc := rfl
@[simp] theorem noteRead_bankAbt (z : AccessSize) (a : Word) (q f : Bool) : (s.noteRead z a q f).bankAbt = s.bankAbt := rfl
@[simp] theorem noteRead_bankUnd (z : AccessSize) (a : Word) (q f : Bool) : (s.noteRead z a q f).bankUnd = s.bankUnd := rfl
@[simp] theorem noteRead_cpsr (z : AccessSize) (a : Word) (q f : Bool) : (s.noteRead z a q f).cpsr = s.cpsr := rfl
@[simp] theorem noteRead_spsrFiq (z : AccessSize) (a : Word) (q f : Bool) : (s.noteRead z a q f).spsrFiq = s.spsrFiq := rfl
@[simp] theorem noteRead_spsrIrq (z : AccessSize) (a : Word) (q f : Bool) : (s.noteRead z a q f).spsrIrq = s.spsrIrq := rfl
@[simp] theorem noteRead_spsrSvc (z : AccessSize) (a : Word) (q f : Bool) : (s.noteRead z a q f).spsrSvc = s.spsrSvc := rfl
@[simp] theorem noteRead_spsrAbt (z : AccessSize) (a : Word) (q f : Bool) : (s.noteRead z a q f).spsrAbt = s.spsrAbt := rfl
@[simp] theorem noteRead_spsrUnd (z : AccessSize) (a : Word) (q f : Bool) : (s.noteRead z a q f).spsrUnd = s.spsrUnd := rfl
@[simp] theorem noteRead_slot0 (z : AccessSize) (a : Word) (q f : Bool) : (s.noteRead z a q f).slot0 = s.slot0 := rfl
@[simp] theorem noteRead_slot1 (z : AccessSize) (a : Word) (q f : Bool) : (s.noteRead z a q f).slot1 = s.slot1 := rfl
@[simp] theorem noteRead_flush (z : AccessSize) (a : Word) (q f : Bool) : (s.noteRead z a q f).flush = s.flush := rfl
@[simp] theorem noteRead_halted (z : AccessSize) (a : Word) (q f : Bool) : (s.noteRead z a q f).halted = s.halted := rfl
@[simp] theorem noteRead_cycles (z : AccessSize) (a : Word) (q f : Bool) : (s.noteRead z a q f).cycles = s.cycles := rfl
@[simp] theorem noteRead_pending (z : AccessSize) (a : Word) (q f : Bool) : (s.noteRead z a q f).pending = s.pending := rfl
@[simp] theorem noteRead_fiqLine (z : AccessSize) (a : Word) (q f : Bool) : (s.noteRead z a q f).fiqLine = s.fiqLine := rfl
@[simp] theorem noteRead_mem (z : AccessSize) (a : Word) (q f : Bool) : (s.noteRead z a q f).mem = s.mem := rfl
@[simp] theorem noteRead_freeIdx (z : AccessSize) (a : Word) (q f : Bool) : (s.noteRead z a q f).freeIdx = s.freeIdx := rfl

@[simp] theorem memWrite_cfg (z : AccessSize) (a v : Word) (q f : Bool) : (s.memWrite z a v q f).cfg = s.cfg := rfl
@[simp] theorem memWrite_regs (z : AccessSize) (a v : Word) (q f : Bool) : (s.memWrite z a v q f).regs = s.regs := rfl
@[simp] theorem memWrite_bankUsr (z : AccessSize) (a v : Word) (q f : Bool) : (s.memWrite z a v q f).bankUsr = s.bankUsr := rfl
@[simp] theorem memWrite_bankFiq (z : AccessSize) (a v : Word) (q f : Bool) : (s.memWrite z a v q f).bankFiq = s.bankFiq := rfl
@[simp] theorem memWrite_bankIrq (z : AccessSize) (a v : Word) (q f : Bool) : (s.memWrite z a v q f).bankIrq = s.bankIrq := rfl
@[simp] theorem memWrite_bankSvc (z : AccessSize) (a v : Word) (q f : Bool) : (s.memWrite z a v q f).bankSvc = s.bankSvc := rfl
@[simp] theorem memWrite_bankAbt (z : AccessSize) (a v : Word) (q f : Bool) : (s.memWrite z a v q f).bankAbt = s.bankAbt := rfl
@[simp] theorem memWrite_bankUnd (z : AccessSize) (a v : Word) (q f : Bool) : (s.memWrite z a v q f).bankUnd = s.bankUnd := rfl
@[simp] theorem memWrite_cpsr (z : AccessSize) (a v : Word) (q f : Bool) : (s.memWrite z a v q f).cpsr = s.cpsr := rfl
@[simp] theorem memWrite_spsrFiq (z : AccessSize) (a v : Word) (q f : Bool) : (s.memWrite z a v q f).spsrFiq = s.spsrFiq := rfl
@[simp] theorem memWrite_spsrIrq (z : AccessSize) (a v : Word) (q f : Bool) : (s.memWrite z a v q f).spsrIrq = s.spsrIrq := rfl
@[simp] theorem memWrite_spsrSvc (z : AccessSize) (a v : Word) (q f : Bool) : (s.memWrite z a v q f).spsrSvc = s.spsrSvc := rfl
@[simp] theorem memWrite_spsrAbt (z : AccessSize) (a v : Word) (q f : Bool) : (s.memWrite z a v q f).spsrAbt = s.spsrAbt := rfl
@[simp] theorem memWrite_spsrUnd (z : AccessSize) (a v : Word) (q f : Bool) : (s.memWrite z a v q f).spsrUnd = s.spsrUnd := rfl
@[simp] theorem memWrite_slot0 (z : AccessSize) (a v : Word) (q f : Bool) : (s.memWrite z a v q f).slot0 = s.slot0 := rfl
@[simp] theorem memWrite_slot1 (z : AccessSize) (a v : Word) (q f : Bool) : (s.memWrite z a v q f).slot1 = s.slot1 := rfl
@[simp] theorem memWrite_flush (z : AccessSize) (a v : Word) (q f : Bool) : (s.memWrite z a v q f).flush = s.flush := rfl
@[simp] theorem memWrite_halted (z : AccessSize) (a v : Word) (q f : Bool) : (s.memWrite z a v q f).halted = s.halted := rfl
@[simp] theorem memWrite_cycles (z : AccessSize) (a v : Word) (q f : Bool) : (s.memWrite z a v q f).cycles = s.cycles := rfl
@[simp] theorem memWrite_pending (z : AccessSize) (a v : Word) (q f : Bool) : (s.memWrite z a v q f).pending = s.pending := rfl
@[simp] theorem memWrite_fiqLine (z : AccessSize) (a v : Word) (q f : Bool) : (s.memWrite z a v q f).fiqLine = s.fiqLine := rfl
@[simp] theorem memWrite_mem (z : AccessSize) (a v : Word) (q f : Bool) : (s.memWrite z a v q f).mem = s.mem.writeSized z a v := rfl
@[simp] theorem memWrite_freeIdx (z : AccessSize) (a v : Word) (q f : Bool) : (s.memWrite z a v q f).freeIdx = s.freeIdx := rfl

@[simp] theorem clearBus_cfg : (s.clearBus).cfg = s.cfg := rfl
@[simp] theorem clearBus_regs : (s.clearBus).regs = s.regs := rfl
@[simp] theorem clearBus_bankUsr : (s.clearBus).bankUsr = s.bankUsr := rfl
@[simp] theorem clearBus_bankFiq : (s.clearBus).bankFiq = s.bankFiq := rfl
@[simp] theorem clearBus_bankIrq : (s.clearBus).bankIrq = s.bankIrq := rfl
@[simp] theorem clearBus_bankSvc : (s.clearBus).bankSvc = s.bankSvc := rfl
@[simp] theorem clearBus_bankAbt : (s.clearBus).bankAbt = s.bankAbt := rfl
@[simp] theorem clearBus_bankUnd : (s.clearBus).bankUnd = s.bankUnd := rfl
@[simp] theorem clearBus_cpsr : (s.clearBus).cpsr = s.cpsr := rfl
@[simp] theorem clearBus_spsrFiq : (s.clearBus).spsrFiq = s.spsrFiq := rfl
@[simp] theorem clearBus_spsrIrq : (s.clearBus).spsrIrq = s.spsrIrq := rfl
@[simp] theorem clearBus_spsrSvc : (s.clearBus).spsrSvc = s.spsrSvc := rfl
@[simp] theorem clearBus_spsrAbt : (s.clearBus).spsrAbt = s.spsrAbt := rfl
@[simp] theorem clearBus_spsrUnd : (s.clearBus).spsrUnd = s.spsrUnd := rfl
@[simp] theorem clearBus_slot0 : (s.clearBus).slot0 = s.slot0 := rfl
@[simp] theorem clearBus_slot1 : (s.clearBus).slot1 = s.slot1 := rfl
@[simp] theorem clearBus_flush : (s.clearBus).flush = s.flush := rfl
@[simp] theorem clearBus_halted : (s.clearBus).halted = s.halted := rfl
@[simp] theorem clearBus_cycles : (s.clearBus).cycles = s.cycles := rfl
@[simp] theorem clearBus_pending : (s.clearBus).pending = s.pending := rfl
@[simp] theorem clearBus_fiqLine : (s.clearBus).fiqLine = s.fiqLine := rfl
@[simp] theorem clearBus_mem : (s.clearBus).mem = s.mem := rfl
@[simp] theorem clearBus_bus : (s.clearBus).bus = [] := rfl
@[simp] theorem clearBus_freeIdx : (s.clearBus).freeIdx = s.freeIdx := rfl

@[simp] theorem wake_cfg : (s.wake).cfg = s.cfg := rfl
@[simp] theorem wake_regs : (s.wake).regs = s.regs := rfl
@[simp] theorem wake_bankUsr : (s.wake).bankUsr = s.bankUsr := rfl
@[simp] theorem wake_bankFiq : (s.wake).bankFiq = s.bankFiq := rfl
@[simp] theorem wake_bankIrq : (s.wake).bankIrq = s.bankIrq := rfl
@[simp] theorem wake_bankSvc : (s.wake).bankSvc = s.bankSvc := rfl
@[simp] theorem wake_bankAbt : (s.wake).bankAbt = s.bankAbt := rfl
@[simp] theorem wake_bankUnd : (s.wake).bankUnd = s.bankUnd := rfl
@[simp] theorem wake_cpsr : (s.wake).cpsr = s.cpsr := rfl
@[simp] theorem wake_spsrFiq : (s.wake).spsrFiq = s.spsrFiq := rfl
@[simp] theorem wake_spsrIrq : (s.wake).spsrIrq = s.spsrIrq := rfl
@[simp] theorem wake_spsrSvc : (s.wake).spsrSvc = s.spsrSvc := rfl
@[simp] theorem wake_spsrAbt : (s.wake).spsrAbt = s.spsrAbt := rfl
@[simp] theorem wake_spsrUnd : (s.wake).spsrUnd = s.spsrUnd := rfl
@[simp] theorem wake_slot0 : (s.wake).slot0 = s.slot0 := rfl
@[simp] theorem wake_slot1 : (s.wake).slot1 = s.slot1 := rfl
@[simp] theorem wake_flush : (s.wake).flush = s.flush := rfl
@[simp] theorem wake_halted : (s.wake).halted = (s.halted && !((s.pending != 0) || s.fiqRequest)) := rfl
@[simp] theorem wake_cycles : (s.wake).cycles = s.cycles := rfl
@[simp] theorem wake_pending : (s.wake).pending = s.pending := rfl
@[simp] theorem wake_fiqLine : (s.wake).fiqLine = s.fiqLine := rfl
@[simp] theorem wake_mem : (s.wake).mem = s.mem := rfl
@[simp] theorem wake_bus : (s.wake).bus = s.bus := rfl
@[simp] theorem wake_freeIdx : (s.wake).freeIdx = s.freeIdx := rfl

@[simp] theorem charge_cfg (k : StepKind) (b : Bool) : (s.charge k b).cfg = s.cfg := rfl
@[simp] theorem charge_regs (k : StepKind) (b : Bool) : (s.charge k b).regs = s.regs := rfl
@[simp] theorem charge_bankUsr (k : StepKind) (b : Bool) : (s.charge k b).bankUsr = s.bankUsr := rfl
@[simp] theorem charge_bankFiq (k : StepKind) (b : Bool) : (s.charge k b).bankFiq = s.bankFiq := rfl
@[simp] theorem charge_bankIrq (k : StepKind) (b : Bool) : (s.charge k b).bankIrq = s.bankIrq := rfl
@[simp] theorem charge_bankSvc (k : StepKind) (b : Bool) : (s.charge k b).bankSvc = s.bankSvc := rfl
@[simp] theorem charge_bankAbt (k : StepKind) (b : Bool) : (s.charge k b).bankAbt = s.bankAbt := rfl
@[simp] theorem charge_bankUnd (k : StepKind) (b : Bool) : (s.charge k b).bankUnd = s.bankUnd := rfl
@[simp] theorem charge_cpsr (k : StepKind) (b : Bool) : (s.charge k b).cpsr = s.cpsr := rfl
@[simp] theorem charge_spsrFiq (k : StepKind) (b : Bool) : (s.charge k b).spsrFiq = s.spsrFiq := rfl
@[simp] theorem charge_spsrIrq (k : StepKind) (b : Bool) : (s.charge k b).spsrIrq = s.spsrIrq := rfl
@[simp] theorem charge_spsrSvc (k : StepKind) (b : Bool) : (s.charge k b).spsrSvc = s.spsrSvc := rfl
@[simp] theorem charge_spsrAbt (k : StepKind) (b : Bool) : (s.charge k b).spsrAbt = s.spsrAbt := rfl
@[simp] theorem charge_spsrUnd (k : StepKind) (b : Bool) : (s.charge k b).spsrUnd = s.spsrUnd := rfl
@[simp] theorem charge_slot0 (k : StepKind) (b : Bool) : (s.charge k b).slot0 = s.slot0 := rfl
@[simp] theorem charge_slot1 (k : StepKind) (b : Bool) : (s.charge k b).slot1 = s.slot1 := rfl
@[simp] theorem charge_flush (k : StepKind) (b : Bool) : (s.charge k b).flush = s.flush := rfl
@[simp] theorem charge_halted (k : StepKind) (b : Bool) : (s.charge k b).halted = s.halted := rfl
@[simp] theorem charge_pending (k : StepKind) (b : Bool) : (s.charge k b).pending = s.pending := rfl
@[simp] theorem charge_fiqLine (k : StepKind) (b : Bool) : (s.charge k b).fiqLine = s.fiqLine := rfl
@[simp] theorem charge_mem (k : StepKind) (b : Bool) : (s.charge k b).mem = s.mem := rfl
@[simp] theorem charge_bus (k : StepKind) (b : Bool) : (s.charge k b).bus = s.bus := rfl
@[simp] theorem charge_freeIdx (k : StepKind) (b : Bool) : (s.charge k b).freeIdx = s.freeIdx := rfl

@[simp] theorem advancePc_cfg (w : Word) : (s.advancePc w).cfg = s.cfg := rfl
@[simp] theorem advancePc_regs (w : Word) : (s.advancePc w).regs = s.regs.set 15 (s.reg 15 + w) := rfl
@[simp] theorem advancePc_bankUsr (w : Word) : (s.advancePc w).bankUsr = s.bankUsr := rfl
@[simp] theorem advancePc_bankFiq (w : Word) : (s.advancePc w).bankFiq = s.bankFiq := rfl
@[simp] theorem advancePc_bankIrq (w : Word) : (s.advancePc w).bankIrq = s.bankIrq := rfl
@[simp] theorem advancePc_bankSvc (w : Word) : (s.advancePc w).bankSvc = s.bankSvc := rfl
@[simp] theorem advancePc_bankAbt (w : Word) : (s.advancePc w).bankAbt = s.bankAbt := rfl
@[simp] theorem advancePc_bankUnd (w : Word) : (s.advancePc w).bankUnd = s.bankUnd := rfl
@[simp] theorem advancePc_cpsr (w : Word) : (s.advancePc w).cpsr = s.cpsr := rfl
@[simp] theorem advancePc_spsrFiq (w : Word) : (s.advancePc w).spsrFiq = s.spsrFiq := rfl
@[simp] theorem advancePc_spsrIrq (w : Word) : (s.advancePc w).spsrIrq = s.spsrIrq := rfl
@[simp] theorem advancePc_spsrSvc (w : Word) : (s.advancePc w).spsrSvc = s.spsrSvc := rfl
@[simp] theorem advancePc_spsrAbt (w : Word) : (s.advancePc w).spsrAbt = s.spsrAbt := rfl
@[simp] theorem advancePc_spsrUnd (w : Word) : (s.advancePc w).spsrUnd = s.spsrUnd := rfl
@[simp] theorem advancePc_slot0 (w : Word) : (s.advancePc w).slot0 = s.slot0 := rfl
@[simp] theorem advancePc_slot1 (w : Word) : (s.advancePc w).slot1 = s.slot1 := rfl
@[simp] theorem advancePc_flush (w : Word) : (s.advancePc w).flush = s.flush := rfl
@[simp] theorem advancePc_halted (w : Word) : (s.advancePc w).halted = s.halted := rfl
@[simp] theorem advancePc_cycles (w : Word) : (s.advancePc w).cycles = s.cycles := rfl
@[simp] theorem advancePc_pending (w : Word) : (s.advancePc w).pending = s.pending := rfl
@[simp] theorem advancePc_fiqLine (w : Word) : (s.advancePc w).fiqLine = s.fiqLine := rfl
@[simp] theorem advancePc_mem (w : Word) : (s.advancePc w).mem = s.mem := rfl
@[simp] theorem advancePc_bus (w : Word) : (s.advancePc w).bus = s.bus := rfl
@[simp] theorem advancePc_freeIdx (w : Word) : (s.advancePc w).freeIdx = s.freeIdx := rfl

@[simp] theorem pipelineAdvance_cfg : (s.pipelineAdvance).cfg = s.cfg := rfl
@[simp] theorem pipelineAdvance_regs : (s.pipelineAdvance).regs = s.regs := rfl
@[simp] theorem pipelineAdvance_bankUsr : (s.pipelineAdvance).bankUsr = s.bankUsr := rfl
@[simp] theorem pipelineAdvance_bankFiq : (s.pipelineAdvance).bankFiq = s.bankFiq := rfl
@[simp] theorem pipelineAdvance_bankIrq : (s.pipelineAdvance).bankIrq = s.bankIrq := rfl
@[simp] theorem pipelineAdvance_bankSvc : (s.pipelineAdvance).bankSvc = s.bankSvc := rfl
@[simp] theorem pipelineAdvance_bankAbt : (s.pipelineAdvance).bankAbt = s.bankAbt := rfl
@[simp] theorem pipelineAdvance_bankUnd : (s.pipelineAdvance).bankUnd = s.bankUnd := rfl
@[simp] theorem pipelineAdvance_cpsr : (s.pipelineAdvance).cpsr = s.cpsr := rfl
@[simp] theorem pipelineAdvance_spsrFiq : (s.pipelineAdvance).spsrFiq = s.spsrFiq := rfl
@[simp] theorem pipelineAdvance_spsrIrq : (s.pipelineAdvance).spsrIrq = s.spsrIrq := rfl
@[simp] theorem pipelineAdvance_spsrSvc : (s.pipelineAdvance).spsrSvc = s.spsrSvc := rfl
@[simp] theorem pipelineAdvance_spsrAbt : (s.pipelineAdvance).spsrAbt = s.spsrAbt := rfl
@[simp] theorem pipelineAdvance_spsrUnd : (s.pipelineAdvance).spsrUnd = s.spsrUnd := rfl
@[simp] theorem pipelineAdvance_slot0 : (s.pipelineAdvance).slot0 = s.slot1 := rfl
@[simp] theorem pipelineAdvance_slot1 : (s.pipelineAdvance).slot1 = s.memRead (fetchSize s.cpsr.t) (s.reg 15) := rfl
@[simp] theorem pipelineAdvance_flush : (s.pipelineAdvance).flush = s.flush := rfl
@[simp] theorem pipelineAdvance_halted : (s.pipelineAdvance).halted = s.halted := rfl
@[simp] theorem pipelineAdvance_cycles : (s.pipelineAdvance).cycles = s.cycles := rfl
@[simp] theorem pipelineAdvance_pending : (s.pipelineAdvance).pending = s.pending := rfl
@[simp] theorem pipelineAdvance_fiqLine : (s.pipelineAdvance).fiqLine = s.fiqLine := rfl
@[simp] theorem pipelineAdvance_mem : (s.pipelineAdvance).mem = s.mem := rfl
@[simp] theorem pipelineAdvance_freeIdx : (s.pipelineAdvance).freeIdx = s.freeIdx := rfl

@[simp] theorem reload_cfg : (s.reload).cfg = s.cfg := rfl
@[simp] theorem reload_regs : (s.reload).regs = s.regs.set 15 (alignWidth s.cpsr.t (s.reg 15) + 2 * widthOf s.cpsr.t) := rfl
@[simp] theorem reload_bankUsr : (s.reload).bankUsr = s.bankUsr := rfl
@[simp] theorem reload_bankFiq : (s.reload).bankFiq = s.bankFiq := rfl
@[simp] theorem reload_bankIrq : (s.reload).bankIrq = s.bankIrq := rfl
@[simp] theorem reload_bankSvc : (s.reload).bankSvc = s.bankSvc := rfl
@[simp] theorem reload_bankAbt : (s.reload).bankAbt = s.bankAbt := rfl
@[simp] theorem reload_bankUnd : (s.reload).bankUnd = s.bankUnd := rfl
@[simp] theorem reload_cpsr : (s.reload).cpsr = s.cpsr := rfl
@[simp] theorem reload_spsrFiq : (s.reload).spsrFiq = s.spsrFiq := rfl
@[simp] theorem reload_spsrIrq : (s.reload).spsrIrq = s.spsrIrq := rfl
@[simp] theorem reload_spsrSvc : (s.reload).spsrSvc = s.spsrSvc := rfl
@[simp] theorem reload_spsrAbt : (s.reload).spsrAbt = s.spsrAbt := rfl
@[simp] theorem reload_spsrUnd : (s.reload).spsrUnd = s.spsrUnd := rfl
@[simp] theorem reload_slot0 : (s.reload).slot0 = s.memRead (fetchSize s.cpsr.t) (alignWidth s.cpsr.t (s.reg 15)) := rfl
@[simp] theorem reload_slot1 : (s.reload).slot1 = s.memRead (fetchSize s.cpsr.t) (alignWidth s.cpsr.t (s.reg 15) + widthOf s.cpsr.t) := rfl
@[simp] theorem reload_flush : (s.reload).flush = false := rfl
@[simp] theorem reload_halted : (s.reload).halted = s.halted := rfl
@[simp] theorem reload_cycles : (s.reload).cycles = s.cycles := rfl
@[simp] theorem reload_pending : (s.reload).pending = s.pending := rfl
@[simp] theorem reload_fiqLine : (s.reload).fiqLine = s.fiqLine := rfl
@[simp] theorem reload_mem : (s.reload).mem = s.mem := rfl
@[simp] theorem reload_freeIdx : (s.reload).freeIdx = s.freeIdx := rfl

/-! ## Updates that choose among banks -/

@[simp] theorem setSpsrOf_cfg (b : Bank) (p : Psr) : (s.setSpsrOf b p).cfg = s.cfg := by
  cases b <;> rfl
@[simp] theorem setSpsrOf_regs (b : Bank) (p : Psr) : (s.setSpsrOf b p).regs = s.regs := by
  cases b <;> rfl
@[simp] theorem setSpsrOf_bankUsr (b : Bank) (p : Psr) : (s.setSpsrOf b p).bankUsr = s.bankUsr := by
  cases b <;> rfl
@[simp] theorem setSpsrOf_bankFiq (b : Bank) (p : Psr) : (s.setSpsrOf b p).bankFiq = s.bankFiq := by
  cases b <;> rfl
@[simp] theorem setSpsrOf_bankIrq (b : Bank) (p : Psr) : (s.setSpsrOf b p).bankIrq = s.bankIrq := by
  cases b <;> rfl
@[simp] theorem setSpsrOf_bankSvc (b : Bank) (p : Psr) : (s.setSpsrOf b p).bankSvc = s.bankSvc := by
  cases b <;> rfl
@[simp] theorem setSpsrOf_bankAbt (b : Bank) (p : Psr) : (s.setSpsrOf b p).bankAbt = s.bankAbt := by
  cases b <;> rfl
@[simp] theorem setSpsrOf_bankUnd (b : Bank) (p : Psr) : (s.setSpsrOf b p).bankUnd = s.bankUnd := by
  cases b <;> rfl
@[simp] theorem setSpsrOf_cpsr (b : Bank) (p : Psr) : (s.setSpsrOf b p).cpsr = s.cpsr := by
  cases b <;> rfl
@[simp] theorem setSpsrOf_slot0 (b : Bank) (p : Psr) : (s.setSpsrOf b p).slot0 = s.slot0 := by
  cases b <;> rfl
@[simp] theorem setSpsrOf_slot1 (b : Bank) (p : Psr) : (s.setSpsrOf b p).slot1 = s.slot1 := by
  cases b <;> rfl
@[simp] theorem setSpsrOf_flush (b : Bank) (p : Psr) : (s.setSpsrOf b p).flush = s.flush := by
  cases b <;> rfl
@[simp] theorem setSpsrOf_halted (b : Bank) (p : Psr) : (s.setSpsrOf b p).halted = s.halted := by
  cases b <;> rfl
@[simp] theorem setSpsrOf_cycles (b : Bank) (p : Psr) : (s.setSpsrOf b p).cycles = s.cycles := by
  cases b <;> rfl
@[simp] theorem setSpsrOf_pending (b : Bank) (p : Psr) : (s.setSpsrOf b p).pending = s.pending := by
  cases b <;> rfl
@[simp] theorem setSpsrOf_fiqLine (b : Bank) (p : Psr) : (s.setSpsrOf b p).fiqLine = s.fiqLine := by
  cases b <;> rfl
@[simp] theorem setSpsrOf_mem (b : Bank) (p : Psr) : (s.setSpsrOf b p).mem = s.mem := by
  cases b <;> rfl
@[simp] theorem setSpsrOf_bus (b : Bank) (p : Psr) : (s.setSpsrOf b p).bus = s.bus := by
  cases b <;> rfl
@[simp] theorem setSpsrOf_freeIdx (b : Bank) (p : Psr) : (s.setSpsrOf b p).freeIdx = s.freeIdx := by
  cases b <;> rfl

@[simp] theorem setShadow_cfg (b : Bank) (n : Reg) (v : Word) : (s.setShadow b n v).cfg = s.cfg := by
  cases b <;> rfl
@[simp] theorem setShadow_regs (b : Bank) (n : Reg) (v : Word) : (s.setShadow b n v).regs = s.regs := by
  cases b <;> rfl
@[simp] theorem setShadow_cpsr (b : Bank) (n : Reg) (v : Word) : (s.setShadow b n v).cpsr = s.cpsr := by
  cases b <;> rfl
@[simp] theorem setShadow_spsrFiq (b : Bank) (n : Reg) (v : Word) : (s.setShadow b n v).spsrFiq = s.spsrFiq := by
  cases b <;> rfl
@[simp] theorem setShadow_spsrIrq (b : Bank) (n : Reg) (v : Word) : (s.setShadow b n v).spsrIrq = s.spsrIrq := by
  cases b <;> rfl
@[simp] theorem setShadow_spsrSvc (b : Bank) (n : Reg) (v : Word) : (s.setShadow b n v).spsrSvc = s.spsrSvc := by
  cases b <;> rfl
@[simp] theorem setShadow_spsrAbt (b : Bank) (n : Reg) (v : Word) : (s.setShadow b n v).spsrAbt = s.spsrAbt := by
  cases b <;> rfl
@[simp] theorem setShadow_spsrUnd (b : Bank) (n : Reg) (v : Word) : (s.setShadow b n v).spsrUnd = s.spsrUnd := by
  cases b <;> rfl
@[simp] theorem setShadow_slot0 (b : Bank) (n : Reg) (v : Word) : (s.setShadow b n v).slot0 = s.slot0 := by
  cases b <;> rfl
@[simp] theorem setShadow_slot1 (b : Bank) (n : Reg) (v : Word) : (s.setShadow b n v).slot1 = s.slot1 := by
  cases b <;> rfl
@[simp] theorem setShadow_flush (b : Bank) (n : Reg) (v : Word) : (s.setShadow b n v).flush = s.flush := by
  cases b <;> rfl
@[simp] theorem setShadow_halted (b : Bank) (n : Reg) (v : Word) : (s.setShadow b n v).halted = s.halted := by
  cases b <;> rfl
@[simp] theorem setShadow_cycles (b : Bank) (n : Reg) (v : Word) : (s.setShadow b n v).cycles = s.cycles := by
  cases b <;> rfl
@[simp] theorem setShadow_pending (b : Bank) (n : Reg) (v : Word) : (s.setShadow b n v).pending = s.pending := by
  cases b <;> rfl
@[simp] theorem setShadow_fiqLine (b : Bank) (n : Reg) (v : Word) : (s.setShadow b n v).fiqLine = s.fiqLine := by
  cases b <;> rfl
@[simp] theorem setShadow_mem (b : Bank) (n : Reg) (v : Word) : (s.setShadow b n v).mem = s.mem := by
  cases b <;> rfl
@[simp] theorem setShadow_bus (b : Bank) (n : Reg) (v : Word) : (s.setShadow b n v).bus = s.bus := by
  cases b <;> rfl
@[simp] theorem setShadow_freeIdx (b : Bank) (n : Reg) (v : Word) : (s.setShadow b n v).freeIdx = s.freeIdx := by
  cases b <;> rfl

@[simp] theorem saveBank_cfg (b : Bank) : (s.saveBank b).cfg = s.cfg := by
  cases b <;> rfl
@[simp] theorem saveBank_regs (b : Bank) : (s.saveBank b).regs = s.regs := by
  cases b <;> rfl
@[simp] theorem saveBank_cpsr (b : Bank) : (s.saveBank b).cpsr = s.cpsr := by
  cases b <;> rfl
@[simp] theorem saveBank_spsrFiq (b : Bank) : (s.saveBank b).spsrFiq = s.spsrFiq := by
  cases b <;> rfl
@[simp] theorem saveBank_spsrIrq (b : Bank) : (s.saveBank b).spsrIrq = s.spsrIrq := by
  cases b <;> rfl
@[simp] theorem saveBank_spsrSvc (b : Bank) : (s.saveBank b).spsrSvc = s.spsrSvc := by
  cases b <;> rfl
@[simp] theorem saveBank_spsrAbt (b : Bank) : (s.saveBank b).spsrAbt = s.spsrAbt := by
  cases b <;> rfl
@[simp] theorem saveBank_spsrUnd (b : Bank) : (s.saveBank b).spsrUnd = s.spsrUnd := by
  cases b <;> rfl
@[simp] theorem saveBank_slot0 (b : Bank) : (s.saveBank b).slot0 = s.slot0 := by
  cases b <;> rfl
@[simp] theorem saveBank_slot1 (b : Bank) : (s.saveBank b).slot1 = s.slot1 := by
  cases b <;> rfl
@[simp] theorem saveBank_flush (b : Bank) : (s.saveBank b).flush = s.flush := by
  cases b <;> rfl
@[simp] theorem saveBank_halted (b : Bank) : (s.saveBank b).halted = s.halted := by
  cases b <;> rfl
@[simp] theorem saveBank_cycles (b : Bank) : (s.saveBank b).cycles = s.cycles := by
  cases b <;> rfl
@[simp] theorem saveBank_pending (b : Bank) : (s.saveBank b).pending = s.pending := by
  cases b <;> rfl
@[simp] theorem saveBank_fiqLine (b : Bank) : (s.saveBank b).fiqLine = s.fiqLine := by
  cases b <;> rfl
@[simp] theorem saveBank_mem (b : Bank) : (s.saveBank b).mem = s.mem := by
  cases b <;> rfl
@[simp] theorem saveBank_bus (b : Bank) : (s.saveBank b).bus = s.bus := by
  cases b <;> rfl
@[simp] theorem saveBank_freeIdx (b : Bank) : (s.saveBank b).freeIdx = s.freeIdx := by
  cases b <;> rfl

@[simp] theorem loadBank_cfg (b : Bank) : (s.loadBank b).cfg = s.cfg := by
  cases b <;> rfl
@[simp] theorem loadBank_bankUsr (b : Bank) : (s.loadBank b).bankUsr = s.bankUsr := by
  cases b <;> rfl
@[simp] theorem loadBank_bankFiq (b : Bank) : (s.loadBank b).bankFiq = s.bankFiq := by
  cases b <;> rfl
@[simp] theorem loadBank_bankIrq (b : Bank) : (s.loadBank b).bankIrq = s.bankIrq := by
  cases b <;> rfl
@[simp] theorem loadBank_bankSvc (b : Bank) : (s.loadBank b).bankSvc = s.bankSvc := by
  cases b <;> rfl
@[simp] theorem loadBank_bankAbt (b : Bank) : (s.loadBank b).bankAbt = s.bankAbt := by
  cases b <;> rfl
@[simp] theorem loadBank_bankUnd (b : Bank) : (s.loadBank b).bankUnd = s.bankUnd := by
  cases b <;> rfl
@[simp] theorem loadBank_cpsr (b : Bank) : (s.loadBank b).cpsr = s.cpsr := by
  cases b <;> rfl
@[simp] theorem loadBank_spsrFiq (b : Bank) : (s.loadBank b).spsrFiq = s.spsrFiq := by
  cases b <;> rfl
@[simp] theorem loadBank_spsrIrq (b : Bank) : (s.loadBank b).spsrIrq = s.spsrIrq := by
  cases b <;> rfl
@[simp] theorem loadBank_spsrSvc (b : Bank) : (s.loadBank b).spsrSvc = s.spsrSvc := by
  cases b <;> rfl
@[simp] theorem loadBank_spsrAbt (b : Bank) : (s.loadBank b).spsrAbt = s.spsrAbt := by
  cases b <;> rfl
@[simp] theorem loadBank_spsrUnd (b : Bank) : (s.loadBank b).spsrUnd = s.spsrUnd := by
  cases b <;> rfl
@[simp] theorem loadBank_slot0 (b : Bank) : (s.loadBank b).slot0 = s.slot0 := by
  cases b <;> rfl
@[simp] theorem loadBank_slot1 (b : Bank) : (s.loadBank b).slot1 = s.slot1 := by
  cases b <;> rfl
@[simp] theorem loadBank_flush (b : Bank) : (s.loadBank b).flush = s.flush := by
  cases b <;> rfl
@[simp] theorem loadBank_halted (b : Bank) : (s.loadBank b).halted = s.halted := by
  cases b <;> rfl
@[simp] theorem loadBank_cycles (b : Bank) : (s.loadBank b).cycles = s.cycles := by
  cases b <;> rfl
@[simp] theorem loadBank_pending (b : Bank) : (s.loadBank b).pending = s.pending := by
  cases b <;> rfl
@[simp] theorem loadBank_fiqLine (b : Bank) : (s.loadBank b).fiqLine = s.fiqLine := by
  cases b <;> rfl
@[simp] theorem loadBank_mem (b : Bank) : (s.loadBank b).mem = s.mem := by
  cases b <;> rfl
@[simp] theorem loadBank_bus (b : Bank) : (s.loadBank b).bus = s.bus := by
  cases b <;> rfl
@[simp] theorem loadBank_freeIdx (b : Bank) : (s.loadBank b).freeIdx = s.freeIdx := by
  cases b <;> rfl

@[simp] theorem moveBanks_cfg (b c : Bank) : (s.moveBanks b c).cfg = s.cfg := by
  unfold State.moveBanks; split <;> simp
@[simp] theorem moveBanks_cpsr (b c : Bank) : (s.moveBanks b c).cpsr = s.cpsr := by
  unfold State.moveBanks; split <;> simp
@[simp] theorem moveBanks_spsrFiq (b c : Bank) : (s.moveBanks b c).spsrFiq = s.spsrFiq := by
  unfold State.moveBanks; split <;> simp
@[simp] theorem moveBanks_spsrIrq (b c : Bank) : (s.moveBanks b c).spsrIrq = s.spsrIrq := by
  unfold State.moveBanks; split <;> simp
@[simp] theorem moveBanks_spsrSvc (b c : Bank) : (s.moveBanks b c).spsrSvc = s.spsrSvc := by
  unfold State.moveBanks; split <;> simp
@[simp] theorem moveBanks_spsrAbt (b c : Bank) : (s.moveBanks b c).spsrAbt = s.spsrAbt := by
  unfold State.moveBanks; split <;> simp
@[simp] theorem moveBanks_spsrUnd (b c : Bank) : (s.moveBanks b c).spsrUnd = s.spsrUnd := by
  unfold State.moveBanks; split <;> simp
@[simp] theorem moveBanks_slot0 (b c : Bank) : (s.moveBanks b c).slot0 = s.slot0 := by
  unfold State.moveBanks; split <;> simp
@[simp] theorem moveBanks_slot1 (b c : Bank) : (s.moveBanks b c).slot1 = s.slot1 := by
  unfold State.moveBanks; split <;> simp
@[simp] theorem moveBanks_flush (b c : Bank) : (s.moveBanks b c).flush = s.flush := by
  unfold State.moveBanks; split <;> simp
@[simp] theorem moveBanks_halted (b c : Bank) : (s.moveBanks b c).halted = s.halted := by
  unfold State.moveBanks; split <;> simp
@[simp] theorem moveBanks_cycles (b c : Bank) : (s.moveBanks b c).cycles = s.cycles := by
  unfold State.moveBanks; split <;> simp
@[simp] theorem moveBanks_pending (b c : Bank) : (s.moveBanks b c).pending = s.pending := by
  unfold State.moveBanks; split <;> simp
@[simp] theorem moveBanks_fiqLine (b c : Bank) : (s.moveBanks b c).fiqLine = s.fiqLine := by
  unfold State.moveBanks; split <;> simp
@[simp] theorem moveBanks_mem (b c : Bank) : (s.moveBanks b c).mem = s.mem := by
  unfold State.moveBanks; split <;> simp
@[simp] theorem moveBanks_bus (b c : Bank) : (s.moveBanks b c).bus = s.bus := by
  unfold State.moveBanks; split <;> simp
@[simp] theorem moveBanks_freeIdx (b c : Bank) : (s.moveBanks b c).freeIdx = s.freeIdx := by
  unfold State.moveBanks; split <;> simp

@[simp] theorem switchMode_cfg (m : BitVec 5) : (s.switchMode m).cfg = s.cfg := by
  simp [State.switchMode]
@[simp] theorem switchMode_spsrFiq (m : BitVec 5) : (s.switchMode m).spsrFiq = s.spsrFiq := by
  simp [State.switchMode]
@[simp] theorem switchMode_spsrIrq (m : BitVec 5) : (s.switchMode m).spsrIrq = s.spsrIrq := by
  simp [State.switchMode]
@[simp] theorem switchMode_spsrSvc (m : BitVec 5) : (s.switchMode m).spsrSvc = s.spsrSvc := by
  simp [State.switchMode]
@[simp] theorem switchMode_spsrAbt (m : BitVec 5) : (s.switchMode m).spsrAbt = s.spsrAbt := by
  simp [State.switchMode]
@[simp] theorem switchMode_spsrUnd (m : BitVec 5) : (s.switchMode m).spsrUnd = s.spsrUnd := by
  simp [State.switchMode]
@[simp] theorem switchMode_slot0 (m : BitVec 5) : (s.switchMode m).slot0 = s.slot0 := by
  simp [State.switchMode]
@[simp] theorem switchMode_slot1 (m : BitVec 5) : (s.switchMode m).slot1 = s.slot1 := by
  simp [State.switchMode]
@[simp] theorem switchMode_flush (m : BitVec 5) : (s.switchMode m).flush = s.flush := by
  simp [State.switchMode]
@[simp] theorem switchMode_halted (m : BitVec 5) : (s.switchMode m).halted = s.halted := by
  simp [State.switchMode]
@[simp] theorem switchMode_cycles (m : BitVec 5) : (s.switchMode m).cycles = s.cycles := by
  simp [State.switchMode]
@[simp] theorem switchMode_pending (m : BitVec 5) : (s.switchMode m).pending = s.pending := by
  simp [State.switchMode]
@[simp] theorem switchMode_fiqLine (m : BitVec 5) : (s.switchMode m).fiqLine = s.fiqLine := by
  simp [State.switchMode]
@[simp] theorem switchMode_mem (m : BitVec 5) : (s.switchMode m).mem = s.mem := by
  simp [State.switchMode]
@[simp] theorem switchMode_bus (m : BitVec 5) : (s.switchMode m).bus = s.bus := by
  simp [State.switchMode]
@[simp] theorem switchMode_freeIdx (m : BitVec 5) : (s.switchMode m).freeIdx = s.freeIdx := by
  simp [State.switchMode]

@[simp] theorem writeReg_cfg (r : Reg) (v : Word) : (s.writeReg r v).cfg = s.cfg := by
  unfold State.writeReg; split <;> rfl
@[simp] theorem writeReg_bankUsr (r : Reg) (v : Word) : (s.writeReg r v).bankUsr = s.bankUsr := by
  unfold State.writeReg; split <;> rfl
@[simp] theorem writeReg_bankFiq (r : Reg) (v : Word) : (s.writeReg r v).bankFiq = s.bankFiq := by
  unfold State.writeReg; split <;> rfl
@[simp] theorem writeReg_bankIrq (r : Reg) (v : Word) : (s.writeReg r v).bankIrq = s.bankIrq := by
  unfold State.writeReg; split <;> rfl
@[simp] theorem writeReg_bankSvc (r : Reg) (v : Word) : (s.writeReg r v).bankSvc = s.bankSvc := by
  unfold State.writeReg; split <;> rfl
@[simp] theorem writeReg_bankAbt (r : Reg) (v : Word) : (s.writeReg r v).bankAbt = s.bankAbt := by
  unfold State.writeReg; split <;> rfl
@[simp] theorem writeReg_bankUnd (r : Reg) (v : Word) : (s.writeReg r v).bankUnd = s.bankUnd := by
  unfold State.writeReg; split <;> rfl
@[simp] theorem writeReg_cpsr (r : Reg) (v : Word) : (s.writeReg r v).cpsr = s.cpsr := by
  unfold State.writeReg; split <;> rfl
@[simp] theorem writeReg_spsrFiq (r : Reg) (v : Word) : (s.writeReg r v).spsrFiq = s.spsrFiq := by
  unfold State.writeReg; split <;> rfl
@[simp] theorem writeReg_spsrIrq (r : Reg) (v : Word) : (s.writeReg r v).spsrIrq = s.spsrIrq := by
  unfold State.writeReg; split <;> rfl
@[simp] theorem writeReg_spsrSvc (r : Reg) (v : Word) : (s.writeReg r v).spsrSvc = s.spsrSvc := by
  unfold State.writeReg; split <;> rfl
@[simp] theorem writeReg_spsrAbt (r : Reg) (v : Word) : (s.writeReg r v).spsrAbt = s.spsrAbt := by
  unfold State.writeReg; split <;> rfl
@[simp] theorem writeReg_spsrUnd (r : Reg) (v : Word) : (s.writeReg r v).spsrUnd = s.spsrUnd := by
  unfold State.writeReg; split <;> rfl
@[simp] theorem writeReg_slot0 (r : Reg) (v : Word) : (s.writeReg r v).slot0 = s.slot0 := by
  unfold State.writeReg; split <;> rfl
@[simp] theorem writeReg_slot1 (r : Reg) (v : Word) : (s.writeReg r v).slot1 = s.slot1 := by
  unfold State.writeReg; split <;> rfl
@[simp] theorem writeReg_halted (r : Reg) (v : Word) : (s.writeReg r v).halted = s.halted := by
  unfold State.writeReg; split <;> rfl
@[simp] theorem writeReg_cycles (r : Reg) (v : Word) : (s.writeReg r v).cycles = s.cycles := by
  unfold State.writeReg; split <;> rfl
@[simp] theorem writeReg_pending (r : Reg) (v : Word) : (s.writeReg r v).pending = s.pending := by
  unfold State.writeReg; split <;> rfl
@[simp] theorem writeReg_fiqLine (r : Reg) (v : Word) : (s.writeReg r v).fiqLine = s.fiqLine := by
  unfold State.writeReg; split <;> rfl
@[simp] theorem writeReg_mem (r : Reg) (v : Word) : (s.writeReg r v).mem = s.mem := by
  unfold State.writeReg; split <;> rfl
@[simp] theorem writeReg_bus (r : Reg) (v : Word) : (s.writeReg r v).bus = s.bus := by
  unfold State.writeReg; split <;> rfl
@[simp] theorem writeReg_freeIdx (r : Reg) (v : Word) : (s.writeReg r v).freeIdx = s.freeIdx := by
  unfold State.writeReg; split <;> rfl

@[simp] theorem setRegMode_cfg (m : BitVec 5) (r : Reg) (v : Word) : (s.setRegMode m r v).cfg = s.cfg := by
  unfold State.setRegMode; split <;> (try split) <;> simp
@[simp] theorem setRegMode_cpsr (m : BitVec 5) (r : Reg) (v : Word) : (s.setRegMode m r v).cpsr = s.cpsr := by
  unfold State.setRegMode; split <;> (try split) <;> simp
@[simp] theorem setRegMode_spsrFiq (m : BitVec 5) (r : Reg) (v : Word) : (s.setRegMode m r v).spsrFiq = s.spsrFiq := by
  unfold State.setRegMode; split <;> (try split) <;> simp
@[simp] theorem setRegMode_spsrIrq (m : BitVec 5) (r : Reg) (v : Word) : (s.setRegMode m r v).spsrIrq = s.spsrIrq := by
  unfold State.setRegMode; split <;> (try split) <;> simp
@[simp] theorem setRegMode_spsrSvc (m : BitVec 5) (r : Reg) (v : Word) : (s.setRegMode m r v).spsrSvc = s.spsrSvc := by
  unfold State.setRegMode; split <;> (try split) <;> simp
@[simp] theorem setRegMode_spsrAbt (m : BitVec 5) (r : Reg) (v : Word) : (s.setRegMode m r v).spsrAbt = s.spsrAbt := by
  unfold State.setRegMode; split <;> (try split) <;> simp
@[simp] theorem setRegMode_spsrUnd (m : BitVec 5) (r : Reg) (v : Word) : (s.setRegMode m r v).spsrUnd = s.spsrUnd := by
  unfold State.setRegMode; split <;> (try split) <;> simp
@[simp] theorem setRegMode_slot0 (m : BitVec 5) (r : Reg) (v : Word) : (s.setRegMode m r v).slot0 = s.slot0 := by
  unfold State.setRegMode; split <;> (try split) <;> simp
@[simp] theorem setRegMode_slot1 (m : BitVec 5) (r : Reg) (v : Word) : (s.setRegMode m r v).slot1 = s.slot1 := by
  unfold State.setRegMode; split <;> (try split) <;> simp
@[simp] theorem setRegMode_flush (m : BitVec 5) (r : Reg) (v : Word) : (s.setRegMode m r v).flush = s.flush := by
  unfold State.setRegMode; split <;> (try split) <;> simp
@[simp] theorem setRegMode_halted (m : BitVec 5) (r : Reg) (v : Word) : (s.setRegMode m r v).halted = s.halted := by
  unfold State.setRegMode; split <;> (try split) <;> simp
@[simp] theorem setRegMode_cycles (m : BitVec 5) (r : Reg) (v : Word) : (s.setRegMode m r v).cycles = s.cycles := by
  unfold State.setRegMode; split <;> (try split) <;> simp
@[simp] theorem setRegMode_pending (m : BitVec 5) (r : Reg) (v : Word) : (s.setRegMode m r v).pending = s.pending := by
  unfold State.setRegMode; split <;> (try split) <;> simp
@[simp] theorem setRegMode_fiqLine (m : BitVec 5) (r : Reg) (v : Word) : (s.setRegMode m r v).fiqLine = s.fiqLine := by
  unfold State.setRegMode; split <;> (try split) <;> simp
@[simp] theorem setRegMode_mem (m : BitVec 5) (r : Reg) (v : Word) : (s.setRegMode m r v).mem = s.mem := by
  unfold State.setRegMode; split <;> (try split) <;> simp
@[simp] theorem setRegMode_bus (m : BitVec 5) (r : Reg) (v : Word) : (s.setRegMode m r v).bus = s.bus := by
  unfold State.setRegMode; split <;> (try split) <;> simp
@[simp] theorem setRegMode_freeIdx (m : BitVec 5) (r : Reg) (v : Word) : (s.setRegMode m r v).freeIdx = s.freeIdx := by
  unfold State.setRegMode; split <;> (try split) <;> simp

@[simp] theorem restoreCpsr_cfg : (s.restoreCpsr).cfg = s.cfg := by
  unfold State.restoreCpsr; split <;> simp
@[simp] theorem restoreCpsr_spsrFiq : (s.restoreCpsr).spsrFiq = s.spsrFiq := by
  unfold State.restoreCpsr; split <;> simp
@[simp] theorem restoreCpsr_spsrIrq : (s.restoreCpsr).spsrIrq = s.spsrIrq := by
  unfold State.restoreCpsr; split <;> simp
@[simp] theorem restoreCpsr_spsrSvc : (s.restoreCpsr).spsrSvc = s.spsrSvc := by
  unfold State.restoreCpsr; split <;> simp
@[simp] theorem restoreCpsr_spsrAbt : (s.restoreCpsr).spsrAbt = s.spsrAbt := by
  unfold State.restoreCpsr; split <;> simp
@[simp] theorem restoreCpsr_spsrUnd : (s.restoreCpsr).spsrUnd = s.spsrUnd := by
  unfold State.restoreCpsr; split <;> simp
@[simp] theorem restoreCpsr_slot0 : (s.restoreCpsr).slot0 = s.slot0 := by
  unfold State.restoreCpsr; split <;> simp
@[simp] theorem restoreCpsr_slot1 : (s.restoreCpsr).slot1 = s.slot1 := by
  unfold State.restoreCpsr; split <;> simp
@[simp] theorem restoreCpsr_flush : (s.restoreCpsr).flush = s.flush := by
  unfold State.restoreCpsr; split <;> simp
@[simp] theorem restoreCpsr_halted : (s.restoreCpsr).halted = s.halted := by
  unfold State.restoreCpsr; split <;> simp
@[simp] theorem restoreCpsr_cycles : (s.restoreCpsr).cycles = s.cycles := by
  unfold State.restoreCpsr; split <;> simp
@[simp] theorem restoreCpsr_pending : (s.restoreCpsr).pending = s.pending := by
  unfold State.restoreCpsr; split <;> simp
@[simp] theorem restoreCpsr_fiqLine : (s.restoreCpsr).fiqLine = s.fiqLine := by
  unfold State.restoreCpsr; split <;> simp
@[simp] theorem restoreCpsr_mem : (s.restoreCpsr).mem = s.mem := by
  unfold State.restoreCpsr; split <;> simp
@[simp] theorem restoreCpsr_bus : (s.restoreCpsr).bus = s.bus := by
  unfold State.restoreCpsr; split <;> simp
@[simp] theorem restoreCpsr_freeIdx : (s.restoreCpsr).freeIdx = s.freeIdx := by
  unfold State.restoreCpsr; split <;> simp

@[simp] theorem writeBase_cfg (ta : TransferAddress) (r : Reg) : (s.writeBase ta r).cfg = s.cfg := by
  unfold State.writeBase; split <;> simp
@[simp] theorem writeBase_bankUsr (ta : TransferAddress) (r : Reg) : (s.writeBase ta r).bankUsr = s.bankUsr := by
  unfold State.writeBase; split <;> simp
@[simp] theorem writeBase_bankFiq (ta : TransferAddress) (r : Reg) : (s.writeBase ta r).bankFiq = s.bankFiq := by
  unfold State.writeBase; split <;> simp
@[simp] theorem writeBase_bankIrq (ta : TransferAddress) (r : Reg) : (s.writeBase ta r).bankIrq = s.bankIrq := by
  unfold State.writeBase; split <;> simp
@[simp] theorem writeBase_bankSvc (ta : TransferAddress) (r : Reg) : (s.writeBase ta r).bankSvc = s.bankSvc := by
  unfold State.writeBase; split <;> simp
@[simp] theorem writeBase_bankAbt (ta : TransferAddress) (r : Reg) : (s.writeBase ta r).bankAbt = s.bankAbt := by
  unfold State.writeBase; split <;> simp
@[simp] theorem writeBase_bankUnd (ta : TransferAddress) (r : Reg) : (s.writeBase ta r).bankUnd = s.bankUnd := by
  unfold State.writeBase; split <;> simp
@[simp] theorem writeBase_cpsr (ta : TransferAddress) (r : Reg) : (s.writeBase ta r).cpsr = s.cpsr := by
  unfold State.writeBase; split <;> simp
@[simp] theorem writeBase_spsrFiq (ta : TransferAddress) (r : Reg) : (s.writeBase ta r).spsrFiq = s.spsrFiq := by
  unfold State.writeBase; split <;> simp
@[simp] theorem writeBase_spsrIrq (ta : TransferAddress) (r : Reg) : (s.writeBase ta r).spsrIrq = s.spsrIrq := by
  unfold State.writeBase; split <;> simp
@[simp] theorem writeBase_spsrSvc (ta : TransferAddress) (r : Reg) : (s.writeBase ta r).spsrSvc = s.spsrSvc := by
  unfold State.writeBase; split <;> simp
@[simp] theorem writeBase_spsrAbt (ta : TransferAddress) (r : Reg) : (s.writeBase ta r).spsrAbt = s.spsrAbt := by
  unfold State.writeBase; split <;> simp
@[simp] theorem writeBase_spsrUnd (ta : TransferAddress) (r : Reg) : (s.writeBase ta r).spsrUnd = s.spsrUnd := by
  unfold State.writeBase; split <;> simp
@[simp] theorem writeBase_slot0 (ta : TransferAddress) (r : Reg) : (s.writeBase ta r).slot0 = s.slot0 := by
  unfold State.writeBase; split <;> simp
@[simp] theorem writeBase_slot1 (ta : TransferAddress) (r : Reg) : (s.writeBase ta r).slot1 = s.slot1 := by
  unfold State.writeBase; split <;> simp
@[simp] theorem writeBase_halted (ta : TransferAddress) (r : Reg) : (s.writeBase ta r).halted = s.halted := by
  unfold State.writeBase; split <;> simp
@[simp] theorem writeBase_cycles (ta : TransferAddress) (r : Reg) : (s.writeBase ta r).cycles = s.cycles := by
  unfold State.writeBase; split <;> simp
@[simp] theorem writeBase_pending (ta : TransferAddress) (r : Reg) : (s.writeBase ta r).pending = s.pending := by
  unfold State.writeBase; split <;> simp
@[simp] theorem writeBase_fiqLine (ta : TransferAddress) (r : Reg) : (s.writeBase ta r).fiqLine = s.fiqLine := by
  unfold State.writeBase; split <;> simp
@[simp] theorem writeBase_mem (ta : TransferAddress) (r : Reg) : (s.writeBase ta r).mem = s.mem := by
  unfold State.writeBase; split <;> simp
@[simp] theorem writeBase_bus (ta : TransferAddress) (r : Reg) : (s.writeBase ta r).bus = s.bus := by
  unfold State.writeBase; split <;> simp
@[simp] theorem writeBase_freeIdx (ta : TransferAddress) (r : Reg) : (s.writeBase ta r).freeIdx = s.freeIdx := by
  unfold State.writeBase; split <;> simp

@[simp] theorem multiplyCarry_cfg (b : Bool) : (s.multiplyCarry b).cfg = s.cfg := by
  unfold State.multiplyCarry; split <;> rfl
@[simp] theorem multiplyCarry_regs (b : Bool) : (s.multiplyCarry b).regs = s.regs := by
  unfold State.multiplyCarry; split <;> rfl
@[simp] theorem multiplyCarry_bankUsr (b : Bool) : (s.multiplyCarry b).bankUsr = s.bankUsr := by
  unfold State.multiplyCarry; split <;> rfl
@[simp] theorem multiplyCarry_bankFiq (b : Bool) : (s.multiplyCarry b).bankFiq = s.bankFiq := by
  unfold State.multiplyCarry; split <;> rfl
@[simp] theorem multiplyCarry_bankIrq (b : Bool) : (s.multiplyCarry b).bankIrq = s.bankIrq := by
  unfold State.multiplyCarry; split <;> rfl
@[simp] theorem multiplyCarry_bankSvc (b : Bool) : (s.multiplyCarry b).bankSvc = s.bankSvc := by
  unfold State.multiplyCarry; split <;> rfl
@[simp] theorem multiplyCarry_bankAbt (b : Bool) : (s.multiplyCarry b).bankAbt = s.bankAbt := by
  unfold State.multiplyCarry; split <;> rfl
@[simp] theorem multiplyCarry_bankUnd (b : Bool) : (s.multiplyCarry b).bankUnd = s.bankUnd := by
  unfold State.multiplyCarry; split <;> rfl
@[simp] theorem multiplyCarry_spsrFiq (b : Bool) : (s.multiplyCarry b).spsrFiq = s.spsrFiq := by
  unfold State.multiplyCarry; split <;> rfl
@[simp] theorem multiplyCarry_spsrIrq (b : Bool) : (s.multiplyCarry b).spsrIrq = s.spsrIrq := by
  unfold State.multiplyCarry; split <;> rfl
@[simp] theorem multiplyCarry_spsrSvc (b : Bool) : (s.multiplyCarry b).spsrSvc = s.spsrSvc := by
  unfold State.multiplyCarry; split <;> rfl
@[simp] theorem multiplyCarry_spsrAbt (b : Bool) : (s.multiplyCarry b).spsrAbt = s.spsrAbt := by
  unfold State.multiplyCarry; split <;> rfl
@[simp] theorem multiplyCarry_spsrUnd (b : Bool) : (s.multiplyCarry b).spsrUnd = s.spsrUnd := by
  unfold State.multiplyCarry; split <;> rfl
@[simp] theorem multiplyCarry_slot0 (b : Bool) : (s.multiplyCarry b).slot0 = s.slot0 := by
  unfold State.multiplyCarry; split <;> rfl
@[simp] theorem multiplyCarry_slot1 (b : Bool) : (s.multiplyCarry b).slot1 = s.slot1 := by
  unfold State.multiplyCarry; split <;> rfl
@[simp] theorem multiplyCarry_flush (b : Bool) : (s.multiplyCarry b).flush = s.flush := by
  unfold State.multiplyCarry; split <;> rfl
@[simp] theorem multiplyCarry_halted (b : Bool) : (s.multiplyCarry b).halted = s.halted := by
  unfold State.multiplyCarry; split <;> rfl
@[simp] theorem multiplyCarry_cycles (b : Bool) : (s.multiplyCarry b).cycles = s.cycles := by
  unfold State.multiplyCarry; split <;> rfl
@[simp] theorem multiplyCarry_pending (b : Bool) : (s.multiplyCarry b).pending = s.pending := by
  unfold State.multiplyCarry; split <;> rfl
@[simp] theorem multiplyCarry_fiqLine (b : Bool) : (s.multiplyCarry b).fiqLine = s.fiqLine := by
  unfold State.multiplyCarry; split <;> rfl
@[simp] theorem multiplyCarry_mem (b : Bool) : (s.multiplyCarry b).mem = s.mem := by
  unfold State.multiplyCarry; split <;> rfl
@[simp] theorem multiplyCarry_bus (b : Bool) : (s.multiplyCarry b).bus = s.bus := by
  unfold State.multiplyCarry; split <;> rfl

/-- The mode switch writes the mode field of CPSR and no other (R371). -/
@[simp] theorem switchMode_cpsr (m : BitVec 5) :
    (s.switchMode m).cpsr = { s.cpsr with m := m } := by
  simp [State.switchMode]

/-! ## Reading a register after an update -/

@[simp] theorem reg_setReg (r q : Reg) (v : Word) :
    (s.setReg r v).reg q = if r = q then v else s.reg q := by
  simp [State.reg, State.setReg, Vector.getElem_set, Fin.ext_iff]

@[simp] theorem reg_setCpsr (p : Psr) (q : Reg) : (s.setCpsr p).reg q = s.reg q := rfl

@[simp] theorem reg_setPc (v : Word) (q : Reg) : (s.setPc v).reg q = if 15 = q then v else s.reg q :=
  reg_setReg s 15 q v

@[simp] theorem reg_noteRead (z : AccessSize) (a : Word) (x f : Bool) (q : Reg) :
    (s.noteRead z a x f).reg q = s.reg q := rfl

@[simp] theorem reg_memWrite (z : AccessSize) (a v : Word) (x f : Bool) (q : Reg) :
    (s.memWrite z a v x f).reg q = s.reg q := rfl

@[simp] theorem reg_writeReg (r q : Reg) (v : Word) :
    (s.writeReg r v).reg q = if r = q then v else s.reg q := by
  unfold State.writeReg
  split
  · rename_i h; subst h; simp
  · simp

@[simp] theorem reg_setSpsrOf (b : Bank) (p : Psr) (q : Reg) : (s.setSpsrOf b p).reg q = s.reg q := by
  simp [State.reg]

@[simp] theorem reg_setShadow (b : Bank) (n : Reg) (v : Word) (q : Reg) :
    (s.setShadow b n v).reg q = s.reg q := by
  simp [State.reg]

@[simp] theorem reg_saveBank (b : Bank) (q : Reg) : (s.saveBank b).reg q = s.reg q := by
  simp [State.reg]

@[simp] theorem reg_advancePc (w : Word) (q : Reg) :
    (s.advancePc w).reg q = if 15 = q then s.reg 15 + w else s.reg q :=
  reg_setReg s 15 q _

@[simp] theorem reg_pipelineAdvance (q : Reg) : s.pipelineAdvance.reg q = s.reg q := rfl

@[simp] theorem reg_charge (k : StepKind) (b : Bool) (q : Reg) : (s.charge k b).reg q = s.reg q := rfl

@[simp] theorem reg_clearBus (q : Reg) : s.clearBus.reg q = s.reg q := rfl

@[simp] theorem reg_wake (q : Reg) : s.wake.reg q = s.reg q := rfl

/-! ## Reading memory after an update that writes none -/

@[simp] theorem memRead_setReg (r : Reg) (v : Word) (z : AccessSize) (a : Word) :
    (s.setReg r v).memRead z a = s.memRead z a := rfl

@[simp] theorem memRead_setCpsr (p : Psr) (z : AccessSize) (a : Word) :
    (s.setCpsr p).memRead z a = s.memRead z a := rfl

@[simp] theorem memRead_noteRead (y z : AccessSize) (b a : Word) (x f : Bool) :
    (s.noteRead y b x f).memRead z a = s.memRead z a := rfl

end Sys2Proof.Machine
end

