-- ==== Sys2Proof/Laws/Effect.lean ====
section
/-! SUPPORT. What any instruction can do, said once: `Keeps` names the fields no instruction writes and the canonical
form of memory, and `Effect` adds that an instruction which does not discard the pipeline leaves r15 and T as
they were (R32, R172, R174). Every operation of the machine has its lemma here, and so has `exec`. -/

namespace Sys2Proof.Machine

/-- Fields that no instruction writes, and the form that memory keeps. -/
structure Keeps (s t : State) : Prop where
  cfg : t.cfg = s.cfg
  slot0 : t.slot0 = s.slot0
  slot1 : t.slot1 = s.slot1
  halted : t.halted = s.halted
  cycles : t.cycles = s.cycles
  pending : t.pending = s.pending
  fiqLine : t.fiqLine = s.fiqLine
  memWf : s.mem.wf = true → t.mem.wf = true

/-- What an instruction can do to the pipeline's address. -/
structure Effect (s t : State) : Prop extends Keeps s t where
  quiet : t.flush = false → s.flush = false ∧ t.cpsr.t = s.cpsr.t ∧ t.reg 15 = s.reg 15

theorem Keeps.rfl (s : State) : Keeps s s := ⟨by simp, by simp, by simp, by simp, by simp, by simp, by simp, id⟩

theorem Keeps.trans {s t u : State} (h : Keeps s t) (k : Keeps t u) : Keeps s u :=
  ⟨k.cfg.trans h.cfg, k.slot0.trans h.slot0, k.slot1.trans h.slot1, k.halted.trans h.halted,
    k.cycles.trans h.cycles, k.pending.trans h.pending, k.fiqLine.trans h.fiqLine, fun w => k.memWf (h.memWf w)⟩

theorem Effect.rfl (s : State) : Effect s s := ⟨Keeps.rfl s, fun h => ⟨h, by simp, by simp⟩⟩

theorem Effect.trans {s t u : State} (h : Effect s t) (k : Effect t u) : Effect s u :=
  ⟨h.toKeeps.trans k.toKeeps, fun hu => by
    obtain ⟨a, b, c⟩ := k.quiet hu
    obtain ⟨a', b', c'⟩ := h.quiet a
    exact ⟨a', b.trans b', c.trans c'⟩⟩

/-! ## Operations that write no r15 and no T -/

theorem Keeps.setReg (s : State) (r : Reg) (v : Word) : Keeps s (s.setReg r v) :=
  ⟨by simp, by simp, by simp, by simp, by simp, by simp, by simp, id⟩

theorem Keeps.setCpsr (s : State) (p : Psr) : Keeps s (s.setCpsr p) :=
  ⟨by simp, by simp, by simp, by simp, by simp, by simp, by simp, id⟩

theorem Keeps.setPc (s : State) (v : Word) : Keeps s (s.setPc v) :=
  ⟨by simp, by simp, by simp, by simp, by simp, by simp, by simp, id⟩

/-- A write of r15 ends any effect: what follows it discards the pipeline (R176). -/
theorem Effect.thenSetPc {s t : State} (h : Keeps s t) (v : Word) : Effect s (t.setPc v) :=
  ⟨h.trans (Keeps.setPc t v), fun hf => by simp at hf⟩

theorem Effect.setReg (s : State) {r : Reg} (hr : r ≠ 15) (v : Word) : Effect s (s.setReg r v) :=
  ⟨Keeps.setReg s r v, fun hf => ⟨by simpa using hf, by simp, by simp [hr]⟩⟩

theorem Effect.setCpsr (s : State) {p : Psr} (hp : p.t = s.cpsr.t) : Effect s (s.setCpsr p) :=
  ⟨Keeps.setCpsr s p, fun hf => ⟨by simpa using hf, by simpa using hp, by simp⟩⟩

theorem Effect.writeReg (s : State) (r : Reg) (v : Word) : Effect s (s.writeReg r v) := by
  unfold State.writeReg
  split
  · exact Effect.thenSetPc (Keeps.rfl s) v
  · rename_i h; exact Effect.setReg s h v

theorem Effect.noteRead (s : State) (z : AccessSize) (a : Word) (x f : Bool) : Effect s (s.noteRead z a x f) :=
  ⟨⟨by simp, by simp, by simp, by simp, by simp, by simp, by simp, id⟩,
    fun hf => ⟨by simpa using hf, by simp, by simp⟩⟩

theorem Effect.memWrite (s : State) (z : AccessSize) (a v : Word) (x f : Bool) :
    Effect s (s.memWrite z a v x f) :=
  ⟨⟨by simp, by simp, by simp, by simp, by simp, by simp, by simp, fun h => wf_writeSized z a v h⟩,
    fun hf => ⟨by simpa using hf, by simp, by simp⟩⟩

theorem Effect.setShadow (s : State) (b : Bank) (n : Reg) (v : Word) : Effect s (s.setShadow b n v) :=
  ⟨⟨by simp, by simp, by simp, by simp, by simp, by simp, by simp, by simp⟩,
    fun hf => ⟨by simpa using hf, by simp, by simp⟩⟩

theorem Effect.setSpsrOf (s : State) (b : Bank) (p : Psr) : Effect s (s.setSpsrOf b p) :=
  ⟨⟨by simp, by simp, by simp, by simp, by simp, by simp, by simp, by simp⟩,
    fun hf => ⟨by simpa using hf, by simp, by simp⟩⟩

theorem Effect.writeBase (s : State) (ta : TransferAddress) (r : Reg) : Effect s (s.writeBase ta r) := by
  unfold State.writeBase
  split
  · exact Effect.writeReg s r _
  · exact Effect.rfl s

theorem Effect.setRegMode (s : State) (m : BitVec 5) {r : Reg} (hr : r ≠ 15) (v : Word) :
    Effect s (s.setRegMode m r v) := by
  unfold State.setRegMode
  split
  · exact Effect.setReg s hr v
  · split
    · exact Effect.setReg s hr v
    · exact Effect.setShadow s _ r v

theorem Effect.whenCond {s : State} {c : Cond} {f : State → State} (h : Effect s (f s)) :
    Effect s (s.whenCond c f) := by
  unfold State.whenCond
  split
  · exact h
  · exact Effect.rfl s

/-! ## The mode switch, exceptions -/

theorem Keeps.switchMode (s : State) (m : BitVec 5) : Keeps s (s.switchMode m) :=
  ⟨by simp, by simp, by simp, by simp, by simp, by simp, by simp, by simp⟩

theorem Keeps.restoreCpsr (s : State) : Keeps s s.restoreCpsr :=
  ⟨by simp, by simp, by simp, by simp, by simp, by simp, by simp, by simp⟩

theorem Effect.exceptionReturn (s : State) (v : Word) : Effect s (s.exceptionReturn v) :=
  Effect.thenSetPc (Keeps.restoreCpsr s) v

theorem Effect.enter (s : State) (e : Exception) (ret : Word) : Effect s (s.enter e ret) := by
  unfold State.enter
  exact Effect.thenSetPc ((((Keeps.switchMode s _).trans (Effect.setSpsrOf _ _ _).toKeeps).trans
    (Keeps.setReg _ _ _)).trans (Keeps.setCpsr _ _)) _

/-! ## The families -/

theorem Effect.dpWrite (s : State) (sb : Bool) (rd : Reg) (v : Word) {p : Psr} (hp : p.t = s.cpsr.t) :
    Effect s (s.dpWrite sb rd v p) := by
  unfold State.dpWrite
  split
  · split
    · exact Effect.exceptionReturn s v
    · exact Effect.thenSetPc (Keeps.rfl s) v
  · rename_i h
    split
    · exact (Effect.setReg s h v).trans (Effect.setCpsr _ hp)
    · exact Effect.setReg s h v

theorem Effect.multiplyCarry (s : State) (b : Bool) : Effect s (s.multiplyCarry b) := by
  unfold State.multiplyCarry
  split
  · exact Effect.rfl s
  · exact ⟨⟨by simp, by simp, by simp, by simp, by simp, by simp, by simp, id⟩,
      fun hf => ⟨hf, by simp, by simp [State.reg]⟩⟩

theorem Effect.multiplyResult (s : State) (sb : Bool) (rd : Reg) (v : Word) :
    Effect s (s.multiplyResult sb rd v) := by
  unfold State.multiplyResult
  refine (Effect.writeReg s rd v).trans ?_
  dsimp only
  split
  · exact (Effect.setCpsr _ (by simp [Psr.setNZ])).trans (Effect.multiplyCarry _ _)
  · exact Effect.rfl _

theorem Effect.writePair (s : State) (a b : Reg) (v : BitVec 64) : Effect s (s.writePair a b v) :=
  (Effect.writeReg s a _).trans (Effect.writeReg _ b _)

theorem Effect.multiplyLongResult (s : State) (sb : Bool) (a b : Reg) (v : BitVec 64) :
    Effect s (s.multiplyLongResult sb a b v) := by
  unfold State.multiplyLongResult
  refine (Effect.writePair s a b v).trans ?_
  dsimp only
  split
  · exact (Effect.setCpsr _ (by simp [Psr.setNZ64])).trans (Effect.multiplyCarry _ _)
  · exact Effect.rfl _

theorem Effect.accumulateQ (s : State) (rd rn : Reg) (p : Int) : Effect s (s.accumulateQ rd rn p) :=
  (Effect.writeReg s rd _).trans (Effect.setCpsr _ (by simp [Psr.orQ]))

theorem Effect.saturate (s : State) (rd : Reg) (v : Int) (b : Bool) : Effect s (s.saturate rd v b) :=
  (Effect.writeReg s rd _).trans (Effect.setCpsr _ (by simp [Psr.orQ]))

theorem Effect.finishLoad (s : State) (z : AccessSize) (ta : TransferAddress) (f : Bool) (rd rn : Reg) (v : Word) :
    Effect s (s.finishLoad z ta f rd rn v) :=
  ((Effect.noteRead s z ta.addr false f).trans (Effect.writeBase _ ta rn)).trans (Effect.writeReg _ rd v)

theorem Effect.finishStore (s : State) (z : AccessSize) (ta : TransferAddress) (f : Bool) (rn : Reg) (v : Word) :
    Effect s (s.finishStore z ta f rn v) :=
  (Effect.memWrite s z ta.addr v false f).trans (Effect.writeBase _ ta rn)

theorem Effect.swap (s : State) (z : AccessSize) (rd : Reg) (a v d : Word) : Effect s (s.swap z rd a v d) :=
  ((Effect.noteRead s z a false false).trans (Effect.memWrite _ z a v false false)).trans (Effect.writeReg _ rd d)

theorem Effect.loadPair (s : State) (ta : TransferAddress) (rd rn : Reg) : Effect s (s.loadPair ta rd rn) :=
  ((((Effect.noteRead s _ _ _ _).trans (Effect.noteRead _ _ _ _ _)).trans (Effect.writeBase _ ta rn)).trans
    (Effect.writeReg _ rd _)).trans (Effect.writeReg _ _ _)

theorem Effect.storePair (s : State) (ta : TransferAddress) (rd rn : Reg) : Effect s (s.storePair ta rd rn) :=
  ((Effect.memWrite s _ _ _ _ _).trans (Effect.memWrite _ _ _ _ _ _)).trans (Effect.writeBase _ ta rn)

theorem Effect.storeWords (l : List Word) : ∀ (s : State) (a : Word) (q : Bool), Effect s (storeWords s a q l) := by
  induction l with
  | nil => intro s a q; exact Effect.rfl s
  | cons v rest ih => intro s a q; exact (Effect.memWrite s _ a v q false).trans (ih _ _ _)

theorem Effect.noteReads (l : List Reg) : ∀ (s : State) (a : Word) (q : Bool), Effect s (noteReads s a q l) := by
  induction l with
  | nil => intro s a q; exact Effect.rfl s
  | cons v rest ih => intro s a q; exact (Effect.noteRead s _ a q false).trans (ih _ _ _)

theorem Effect.writeLoaded (m : BitVec 5) (l : List (Reg × Word)) : ∀ s : State, Effect s (writeLoaded m s l) := by
  induction l with
  | nil => intro s; exact Effect.rfl s
  | cons d rest ih =>
    intro s
    refine Effect.trans ?_ (ih _)
    split
    · exact Effect.rfl s
    · rename_i h; exact Effect.setRegMode s m h d.2

theorem Effect.blockWriteback (s : State) (wb : Bool) (rn : Reg) (v : Word) :
    Effect s (s.blockWriteback wb rn v) := by
  unfold State.blockWriteback
  split
  · exact Effect.writeReg s rn v
  · exact Effect.rfl s

theorem Effect.loadPcLast (s : State) (sb : Bool) (l : List (Reg × Word)) : Effect s (s.loadPcLast sb l) := by
  unfold State.loadPcLast
  split
  · exact Effect.rfl s
  · split
    · exact Effect.exceptionReturn s _
    · exact Effect.thenSetPc (Keeps.rfl s) _

theorem Effect.storeMultiple (s : State) (mode : BlockMode) (u wb : Bool) (rn : Reg) (l : BitVec 16) :
    Effect s (s.storeMultiple mode u wb rn l) :=
  (Effect.storeWords _ s _ false).trans (Effect.blockWriteback _ wb rn _)

theorem Effect.loadMultiple (s : State) (mode : BlockMode) (sb wb : Bool) (rn : Reg) (l : BitVec 16) :
    Effect s (s.loadMultiple mode sb wb rn l) :=
  (((Effect.noteReads _ s _ false).trans (Effect.blockWriteback _ wb rn _)).trans
    (Effect.writeLoaded _ _ _)).trans (Effect.loadPcLast _ sb _)

theorem Effect.msrCpsr (s : State) (f : PsrFields) (p : Psr) : Effect s (s.msrCpsr f p) := by
  unfold State.msrCpsr
  dsimp only
  split
  · exact Effect.thenSetPc ((Keeps.switchMode s _).trans (Keeps.setCpsr _ _)) _
  · refine Effect.setCpsr s ?_
    split <;> simp [Psr.withFlagsOf]

theorem Effect.msrSpsr (s : State) (f : PsrFields) (p : Psr) : Effect s (s.msrSpsr f p) := by
  unfold State.msrSpsr
  split
  · exact Effect.rfl s
  · exact Effect.setSpsrOf s _ _

theorem Effect.branchExchange (s : State) (v : Word) : Effect s (s.branchExchange v) :=
  Effect.thenSetPc (Keeps.setCpsr s _) _

theorem lowReg_ne_pc (r : LowReg) : lowReg r ≠ 15 := by
  revert r; decide

theorem Effect.thumbLogic (s : State) (rd : LowReg) (v : Word) (c : Bool) : Effect s (s.thumbLogic rd v c) :=
  (Effect.setReg s (lowReg_ne_pc rd) v).trans (Effect.setCpsr _ (by simp [Psr.setLogic, Psr.setNZ]))

theorem Effect.thumbArith (s : State) (rd : LowReg) (a : Sum) : Effect s (s.thumbArith rd a) :=
  (Effect.setReg s (lowReg_ne_pc rd) a.result).trans (Effect.setCpsr _ (by simp [Psr.setArith, Psr.setNZ]))

theorem Effect.setArith (s : State) (a : Sum) : Effect s (s.setCpsr (s.cpsr.setArith a)) :=
  Effect.setCpsr s (by simp [Psr.setArith, Psr.setNZ])

theorem Effect.setLogic (s : State) (v : Word) (c : Bool) : Effect s (s.setCpsr (s.cpsr.setLogic v c)) :=
  Effect.setCpsr s (by simp [Psr.setLogic, Psr.setNZ])

end Sys2Proof.Machine
end

