-- ==== Sys2Proof/Laws/Exec.lean ====
section
/-! SUPPORT. Every instruction answers a next state, and its effect is an `Effect`: one line per instruction over
the lemmas of the shared operations. -/

namespace Sys2Proof.Machine

/-- What an instruction does, whichever it is. -/
theorem exec_effect (i : Instr) (s : State) : ∃ t, exec i s = .next t ∧ Effect s t := by
  cases i with
  | and => exact ⟨_, rfl, Effect.whenCond (Effect.dpWrite _ _ _ _ (by simp [Psr.setLogic, Psr.setNZ]))⟩
  | eor => exact ⟨_, rfl, Effect.whenCond (Effect.dpWrite _ _ _ _ (by simp [Psr.setLogic, Psr.setNZ]))⟩
  | sub => exact ⟨_, rfl, Effect.whenCond (Effect.dpWrite _ _ _ _ (by simp [Psr.setArith, Psr.setNZ]))⟩
  | rsb => exact ⟨_, rfl, Effect.whenCond (Effect.dpWrite _ _ _ _ (by simp [Psr.setArith, Psr.setNZ]))⟩
  | add => exact ⟨_, rfl, Effect.whenCond (Effect.dpWrite _ _ _ _ (by simp [Psr.setArith, Psr.setNZ]))⟩
  | adc => exact ⟨_, rfl, Effect.whenCond (Effect.dpWrite _ _ _ _ (by simp [Psr.setArith, Psr.setNZ]))⟩
  | sbc => exact ⟨_, rfl, Effect.whenCond (Effect.dpWrite _ _ _ _ (by simp [Psr.setArith, Psr.setNZ]))⟩
  | rsc => exact ⟨_, rfl, Effect.whenCond (Effect.dpWrite _ _ _ _ (by simp [Psr.setArith, Psr.setNZ]))⟩
  | tst => exact ⟨_, rfl, Effect.whenCond (Effect.setLogic _ _ _)⟩
  | teq => exact ⟨_, rfl, Effect.whenCond (Effect.setLogic _ _ _)⟩
  | cmp => exact ⟨_, rfl, Effect.whenCond (Effect.setArith _ _)⟩
  | cmn => exact ⟨_, rfl, Effect.whenCond (Effect.setArith _ _)⟩
  | orr => exact ⟨_, rfl, Effect.whenCond (Effect.dpWrite _ _ _ _ (by simp [Psr.setLogic, Psr.setNZ]))⟩
  | mov => exact ⟨_, rfl, Effect.whenCond (Effect.dpWrite _ _ _ _ (by simp [Psr.setLogic, Psr.setNZ]))⟩
  | bic => exact ⟨_, rfl, Effect.whenCond (Effect.dpWrite _ _ _ _ (by simp [Psr.setLogic, Psr.setNZ]))⟩
  | mvn => exact ⟨_, rfl, Effect.whenCond (Effect.dpWrite _ _ _ _ (by simp [Psr.setLogic, Psr.setNZ]))⟩
  | mul => exact ⟨_, rfl, Effect.whenCond (Effect.multiplyResult _ _ _ _)⟩
  | mla => exact ⟨_, rfl, Effect.whenCond (Effect.multiplyResult _ _ _ _)⟩
  | umull => exact ⟨_, rfl, Effect.whenCond (Effect.multiplyLongResult _ _ _ _ _)⟩
  | umlal => exact ⟨_, rfl, Effect.whenCond (Effect.multiplyLongResult _ _ _ _ _)⟩
  | smull => exact ⟨_, rfl, Effect.whenCond (Effect.multiplyLongResult _ _ _ _ _)⟩
  | smlal => exact ⟨_, rfl, Effect.whenCond (Effect.multiplyLongResult _ _ _ _ _)⟩
  | smlaxy => exact ⟨_, rfl, Effect.whenCond (Effect.accumulateQ _ _ _ _)⟩
  | smlawy => exact ⟨_, rfl, Effect.whenCond (Effect.accumulateQ _ _ _ _)⟩
  | smulwy => exact ⟨_, rfl, Effect.whenCond (Effect.writeReg _ _ _)⟩
  | smlalxy => exact ⟨_, rfl, Effect.whenCond (Effect.writePair _ _ _ _)⟩
  | smulxy => exact ⟨_, rfl, Effect.whenCond (Effect.writeReg _ _ _)⟩
  | qadd => exact ⟨_, rfl, Effect.whenCond (Effect.saturate _ _ _ _)⟩
  | qsub => exact ⟨_, rfl, Effect.whenCond (Effect.saturate _ _ _ _)⟩
  | qdadd => exact ⟨_, rfl, Effect.whenCond (Effect.saturate _ _ _ _)⟩
  | qdsub => exact ⟨_, rfl, Effect.whenCond (Effect.saturate _ _ _ _)⟩
  | ldr => exact ⟨_, rfl, Effect.whenCond (Effect.finishLoad _ _ _ _ _ _ _)⟩
  | str => exact ⟨_, rfl, Effect.whenCond (Effect.finishStore _ _ _ _ _ _)⟩
  | ldrb => exact ⟨_, rfl, Effect.whenCond (Effect.finishLoad _ _ _ _ _ _ _)⟩
  | strb => exact ⟨_, rfl, Effect.whenCond (Effect.finishStore _ _ _ _ _ _)⟩
  | ldrt => exact ⟨_, rfl, Effect.whenCond (Effect.finishLoad _ _ _ _ _ _ _)⟩
  | strt => exact ⟨_, rfl, Effect.whenCond (Effect.finishStore _ _ _ _ _ _)⟩
  | ldrbt => exact ⟨_, rfl, Effect.whenCond (Effect.finishLoad _ _ _ _ _ _ _)⟩
  | strbt => exact ⟨_, rfl, Effect.whenCond (Effect.finishStore _ _ _ _ _ _)⟩
  | ldrh => exact ⟨_, rfl, Effect.whenCond (Effect.finishLoad _ _ _ _ _ _ _)⟩
  | strh => exact ⟨_, rfl, Effect.whenCond (Effect.finishStore _ _ _ _ _ _)⟩
  | ldrsb => exact ⟨_, rfl, Effect.whenCond (Effect.finishLoad _ _ _ _ _ _ _)⟩
  | ldrsh => exact ⟨_, rfl, Effect.whenCond (Effect.finishLoad _ _ _ _ _ _ _)⟩
  | ldrd => exact ⟨_, rfl, Effect.whenCond (Effect.loadPair _ _ _ _)⟩
  | strd => exact ⟨_, rfl, Effect.whenCond (Effect.storePair _ _ _ _)⟩
  | swp => exact ⟨_, rfl, Effect.whenCond (Effect.swap _ _ _ _ _ _)⟩
  | swpb => exact ⟨_, rfl, Effect.whenCond (Effect.swap _ _ _ _ _ _)⟩
  | ldm => exact ⟨_, rfl, Effect.whenCond (Effect.loadMultiple _ _ _ _ _ _)⟩
  | stm => exact ⟨_, rfl, Effect.whenCond (Effect.storeMultiple _ _ _ _ _ _)⟩
  | mrs => exact ⟨_, rfl, Effect.whenCond (Effect.writeReg _ _ _)⟩
  | msrCpsr => exact ⟨_, rfl, Effect.whenCond (Effect.msrCpsr _ _ _)⟩
  | msrSpsr => exact ⟨_, rfl, Effect.whenCond (Effect.msrSpsr _ _ _)⟩
  | b => exact ⟨_, rfl, Effect.whenCond (Effect.thenSetPc (Keeps.rfl _) _)⟩
  | bl => exact ⟨_, rfl, Effect.whenCond (Effect.thenSetPc (Keeps.setReg _ _ _) _)⟩
  | bx => exact ⟨_, rfl, Effect.whenCond (Effect.branchExchange _ _)⟩
  | blx => exact ⟨_, rfl, Effect.whenCond ((Effect.setReg _ (by decide) _).trans (Effect.branchExchange _ _))⟩
  | swi => exact ⟨_, rfl, Effect.whenCond (Effect.enter _ _ _)⟩
  | bkpt => exact ⟨_, rfl, Effect.whenCond (Effect.enter _ _ _)⟩
  | undefined => exact ⟨_, rfl, Effect.whenCond (Effect.enter _ _ _)⟩
  | tLslImm => exact ⟨_, rfl, Effect.thumbLogic _ _ _ _⟩
  | tLsrImm => exact ⟨_, rfl, Effect.thumbLogic _ _ _ _⟩
  | tAsrImm => exact ⟨_, rfl, Effect.thumbLogic _ _ _ _⟩
  | tAddReg => exact ⟨_, rfl, Effect.thumbArith _ _ _⟩
  | tSubReg => exact ⟨_, rfl, Effect.thumbArith _ _ _⟩
  | tAddImm3 => exact ⟨_, rfl, Effect.thumbArith _ _ _⟩
  | tSubImm3 => exact ⟨_, rfl, Effect.thumbArith _ _ _⟩
  | tMovImm => exact ⟨_, rfl, Effect.thumbLogic _ _ _ _⟩
  | tCmpImm => exact ⟨_, rfl, Effect.setArith _ _⟩
  | tAddImm8 => exact ⟨_, rfl, Effect.thumbArith _ _ _⟩
  | tSubImm8 => exact ⟨_, rfl, Effect.thumbArith _ _ _⟩
  | tAnd => exact ⟨_, rfl, Effect.thumbLogic _ _ _ _⟩
  | tEor => exact ⟨_, rfl, Effect.thumbLogic _ _ _ _⟩
  | tLslReg => exact ⟨_, rfl, Effect.thumbLogic _ _ _ _⟩
  | tLsrReg => exact ⟨_, rfl, Effect.thumbLogic _ _ _ _⟩
  | tAsrReg => exact ⟨_, rfl, Effect.thumbLogic _ _ _ _⟩
  | tAdc => exact ⟨_, rfl, Effect.thumbArith _ _ _⟩
  | tSbc => exact ⟨_, rfl, Effect.thumbArith _ _ _⟩
  | tRorReg => exact ⟨_, rfl, Effect.thumbLogic _ _ _ _⟩
  | tTst => exact ⟨_, rfl, Effect.setCpsr _ (by simp [Psr.setNZ])⟩
  | tNeg => exact ⟨_, rfl, Effect.thumbArith _ _ _⟩
  | tCmpReg => exact ⟨_, rfl, Effect.setArith _ _⟩
  | tCmn => exact ⟨_, rfl, Effect.setArith _ _⟩
  | tOrr => exact ⟨_, rfl, Effect.thumbLogic _ _ _ _⟩
  | tMul => exact ⟨_, rfl, Effect.multiplyResult _ _ _ _⟩
  | tBic => exact ⟨_, rfl, Effect.thumbLogic _ _ _ _⟩
  | tMvn => exact ⟨_, rfl, Effect.thumbLogic _ _ _ _⟩
  | tAddHi => exact ⟨_, rfl, Effect.writeReg _ _ _⟩
  | tCmpHi => exact ⟨_, rfl, Effect.setArith _ _⟩
  | tMovHi => exact ⟨_, rfl, Effect.writeReg _ _ _⟩
  | tBx => exact ⟨_, rfl, Effect.branchExchange _ _⟩
  | tBlx => exact ⟨_, rfl, (Effect.setReg _ (by decide) _).trans (Effect.branchExchange _ _)⟩
  | tLdrPc => exact ⟨_, rfl, Effect.finishLoad _ _ _ _ _ _ _⟩
  | tStrReg => exact ⟨_, rfl, Effect.finishStore _ _ _ _ _ _⟩
  | tStrbReg => exact ⟨_, rfl, Effect.finishStore _ _ _ _ _ _⟩
  | tLdrReg => exact ⟨_, rfl, Effect.finishLoad _ _ _ _ _ _ _⟩
  | tLdrbReg => exact ⟨_, rfl, Effect.finishLoad _ _ _ _ _ _ _⟩
  | tStrhReg => exact ⟨_, rfl, Effect.finishStore _ _ _ _ _ _⟩
  | tLdsbReg => exact ⟨_, rfl, Effect.finishLoad _ _ _ _ _ _ _⟩
  | tLdrhReg => exact ⟨_, rfl, Effect.finishLoad _ _ _ _ _ _ _⟩
  | tLdshReg => exact ⟨_, rfl, Effect.finishLoad _ _ _ _ _ _ _⟩
  | tStrImm => exact ⟨_, rfl, Effect.finishStore _ _ _ _ _ _⟩
  | tLdrImm => exact ⟨_, rfl, Effect.finishLoad _ _ _ _ _ _ _⟩
  | tStrbImm => exact ⟨_, rfl, Effect.finishStore _ _ _ _ _ _⟩
  | tLdrbImm => exact ⟨_, rfl, Effect.finishLoad _ _ _ _ _ _ _⟩
  | tStrhImm => exact ⟨_, rfl, Effect.finishStore _ _ _ _ _ _⟩
  | tLdrhImm => exact ⟨_, rfl, Effect.finishLoad _ _ _ _ _ _ _⟩
  | tStrSp => exact ⟨_, rfl, Effect.finishStore _ _ _ _ _ _⟩
  | tLdrSp => exact ⟨_, rfl, Effect.finishLoad _ _ _ _ _ _ _⟩
  | tAddPc => exact ⟨_, rfl, Effect.setReg _ (lowReg_ne_pc _) _⟩
  | tAddSp => exact ⟨_, rfl, Effect.setReg _ (lowReg_ne_pc _) _⟩
  | tAddSpImm => exact ⟨_, rfl, Effect.setReg _ (by decide) _⟩
  | tSubSpImm => exact ⟨_, rfl, Effect.setReg _ (by decide) _⟩
  | tPush => exact ⟨_, rfl, Effect.storeMultiple _ _ _ _ _ _⟩
  | tPop => exact ⟨_, rfl, Effect.loadMultiple _ _ _ _ _ _⟩
  | tStmia => exact ⟨_, rfl, Effect.storeMultiple _ _ _ _ _ _⟩
  | tLdmia => exact ⟨_, rfl, Effect.loadMultiple _ _ _ _ _ _⟩
  | tBCond => exact ⟨_, rfl, Effect.whenCond (Effect.thenSetPc (Keeps.rfl _) _)⟩
  | tSwi => exact ⟨_, rfl, Effect.enter _ _ _⟩
  | tB => exact ⟨_, rfl, Effect.thenSetPc (Keeps.rfl _) _⟩
  | tBkpt => exact ⟨_, rfl, Effect.enter _ _ _⟩
  | tBlHigh off11 =>
    refine ⟨_, rfl, ?_⟩
    split
    · exact Effect.setReg _ (by decide) _
    · exact Effect.thenSetPc (Keeps.setReg _ _ _) _
  | tBlLow => exact ⟨_, rfl, Effect.thenSetPc (Keeps.setReg _ _ _) _⟩
  | tUndefined => exact ⟨_, rfl, Effect.enter _ _ _⟩

end Sys2Proof.Machine
end

