-- ==== Sys2Proof/Laws/PerInstr.lean ====
section
/-! SUPPORT. Per-instruction statements: each instruction is encoded by its own set, as a word or as a halfword
(R100, R101, R125). -/

namespace Sys2Proof.Laws.EncodeWidth

/-- The encoding of `i` is a halfword exactly if `i` belongs to the Thumb set. -/
def Statement (i : Instr) : Prop :=
  match encode i with
  | .arm _ => i.isThumb = false
  | .thumb _ => i.isThumb = true

theorem and (c : Cond) (sb : Bool) (rd rn : Reg) (op2 : Operand2) :
    Statement (.and c sb rd rn op2) := rfl
theorem eor (c : Cond) (sb : Bool) (rd rn : Reg) (op2 : Operand2) :
    Statement (.eor c sb rd rn op2) := rfl
theorem sub (c : Cond) (sb : Bool) (rd rn : Reg) (op2 : Operand2) :
    Statement (.sub c sb rd rn op2) := rfl
theorem rsb (c : Cond) (sb : Bool) (rd rn : Reg) (op2 : Operand2) :
    Statement (.rsb c sb rd rn op2) := rfl
theorem add (c : Cond) (sb : Bool) (rd rn : Reg) (op2 : Operand2) :
    Statement (.add c sb rd rn op2) := rfl
theorem adc (c : Cond) (sb : Bool) (rd rn : Reg) (op2 : Operand2) :
    Statement (.adc c sb rd rn op2) := rfl
theorem sbc (c : Cond) (sb : Bool) (rd rn : Reg) (op2 : Operand2) :
    Statement (.sbc c sb rd rn op2) := rfl
theorem rsc (c : Cond) (sb : Bool) (rd rn : Reg) (op2 : Operand2) :
    Statement (.rsc c sb rd rn op2) := rfl
theorem tst (c : Cond) (rn : Reg) (op2 : Operand2) :
    Statement (.tst c rn op2) := rfl
theorem teq (c : Cond) (rn : Reg) (op2 : Operand2) :
    Statement (.teq c rn op2) := rfl
theorem cmp (c : Cond) (rn : Reg) (op2 : Operand2) :
    Statement (.cmp c rn op2) := rfl
theorem cmn (c : Cond) (rn : Reg) (op2 : Operand2) :
    Statement (.cmn c rn op2) := rfl
theorem orr (c : Cond) (sb : Bool) (rd rn : Reg) (op2 : Operand2) :
    Statement (.orr c sb rd rn op2) := rfl
theorem mov (c : Cond) (sb : Bool) (rd : Reg) (op2 : Operand2) :
    Statement (.mov c sb rd op2) := rfl
theorem bic (c : Cond) (sb : Bool) (rd rn : Reg) (op2 : Operand2) :
    Statement (.bic c sb rd rn op2) := rfl
theorem mvn (c : Cond) (sb : Bool) (rd : Reg) (op2 : Operand2) :
    Statement (.mvn c sb rd op2) := rfl
theorem mul (c : Cond) (sb : Bool) (rd rm rs : Reg) :
    Statement (.mul c sb rd rm rs) := rfl
theorem mla (c : Cond) (sb : Bool) (rd rm rs rn : Reg) :
    Statement (.mla c sb rd rm rs rn) := rfl
theorem umull (c : Cond) (sb : Bool) (rdLo rdHi rm rs : Reg) :
    Statement (.umull c sb rdLo rdHi rm rs) := rfl
theorem umlal (c : Cond) (sb : Bool) (rdLo rdHi rm rs : Reg) :
    Statement (.umlal c sb rdLo rdHi rm rs) := rfl
theorem smull (c : Cond) (sb : Bool) (rdLo rdHi rm rs : Reg) :
    Statement (.smull c sb rdLo rdHi rm rs) := rfl
theorem smlal (c : Cond) (sb : Bool) (rdLo rdHi rm rs : Reg) :
    Statement (.smlal c sb rdLo rdHi rm rs) := rfl
theorem smlaxy (c : Cond) (x y : HalfSel) (rd rm rs rn : Reg) :
    Statement (.smlaxy c x y rd rm rs rn) := rfl
theorem smlawy (c : Cond) (y : HalfSel) (rd rm rs rn : Reg) :
    Statement (.smlawy c y rd rm rs rn) := rfl
theorem smulwy (c : Cond) (y : HalfSel) (rd rm rs : Reg) :
    Statement (.smulwy c y rd rm rs) := rfl
theorem smlalxy (c : Cond) (x y : HalfSel) (rdLo rdHi rm rs : Reg) :
    Statement (.smlalxy c x y rdLo rdHi rm rs) := rfl
theorem smulxy (c : Cond) (x y : HalfSel) (rd rm rs : Reg) :
    Statement (.smulxy c x y rd rm rs) := rfl
theorem qadd (c : Cond) (rd rm rn : Reg) :
    Statement (.qadd c rd rm rn) := rfl
theorem qsub (c : Cond) (rd rm rn : Reg) :
    Statement (.qsub c rd rm rn) := rfl
theorem qdadd (c : Cond) (rd rm rn : Reg) :
    Statement (.qdadd c rd rm rn) := rfl
theorem qdsub (c : Cond) (rd rm rn : Reg) :
    Statement (.qdsub c rd rm rn) := rfl
theorem ldr (c : Cond) (mode : IndexMode) (up : Bool) (rd rn : Reg) (off : Offset) :
    Statement (.ldr c mode up rd rn off) := rfl
theorem str (c : Cond) (mode : IndexMode) (up : Bool) (rd rn : Reg) (off : Offset) :
    Statement (.str c mode up rd rn off) := rfl
theorem ldrb (c : Cond) (mode : IndexMode) (up : Bool) (rd rn : Reg) (off : Offset) :
    Statement (.ldrb c mode up rd rn off) := rfl
theorem strb (c : Cond) (mode : IndexMode) (up : Bool) (rd rn : Reg) (off : Offset) :
    Statement (.strb c mode up rd rn off) := rfl
theorem ldrt (c : Cond) (up : Bool) (rd rn : Reg) (off : Offset) :
    Statement (.ldrt c up rd rn off) := rfl
theorem strt (c : Cond) (up : Bool) (rd rn : Reg) (off : Offset) :
    Statement (.strt c up rd rn off) := rfl
theorem ldrbt (c : Cond) (up : Bool) (rd rn : Reg) (off : Offset) :
    Statement (.ldrbt c up rd rn off) := rfl
theorem strbt (c : Cond) (up : Bool) (rd rn : Reg) (off : Offset) :
    Statement (.strbt c up rd rn off) := rfl
theorem ldrh (c : Cond) (mode : IndexMode) (up : Bool) (rd rn : Reg) (off : HalfOffset) :
    Statement (.ldrh c mode up rd rn off) := rfl
theorem strh (c : Cond) (mode : IndexMode) (up : Bool) (rd rn : Reg) (off : HalfOffset) :
    Statement (.strh c mode up rd rn off) := rfl
theorem ldrsb (c : Cond) (mode : IndexMode) (up : Bool) (rd rn : Reg) (off : HalfOffset) :
    Statement (.ldrsb c mode up rd rn off) := rfl
theorem ldrsh (c : Cond) (mode : IndexMode) (up : Bool) (rd rn : Reg) (off : HalfOffset) :
    Statement (.ldrsh c mode up rd rn off) := rfl
theorem ldrd (c : Cond) (mode : IndexMode) (up : Bool) (rd rn : Reg) (off : HalfOffset) :
    Statement (.ldrd c mode up rd rn off) := rfl
theorem strd (c : Cond) (mode : IndexMode) (up : Bool) (rd rn : Reg) (off : HalfOffset) :
    Statement (.strd c mode up rd rn off) := rfl
theorem swp (c : Cond) (rd rm rn : Reg) :
    Statement (.swp c rd rm rn) := rfl
theorem swpb (c : Cond) (rd rm rn : Reg) :
    Statement (.swpb c rd rm rn) := rfl
theorem ldm (c : Cond) (mode : BlockMode) (sb wb : Bool) (rn : Reg) (list : BitVec 16) :
    Statement (.ldm c mode sb wb rn list) := rfl
theorem stm (c : Cond) (mode : BlockMode) (sb wb : Bool) (rn : Reg) (list : BitVec 16) :
    Statement (.stm c mode sb wb rn list) := rfl
theorem mrs (c : Cond) (src : PsrSel) (rd : Reg) :
    Statement (.mrs c src rd) := by cases src <;> rfl
theorem msrCpsr (c : Cond) (fields : PsrFields) (src : MsrOperand) :
    Statement (.msrCpsr c fields src) := rfl
theorem msrSpsr (c : Cond) (fields : PsrFields) (src : MsrOperand) :
    Statement (.msrSpsr c fields src) := rfl
theorem b (c : Cond) (imm24 : BitVec 24) :
    Statement (.b c imm24) := rfl
theorem bl (c : Cond) (imm24 : BitVec 24) :
    Statement (.bl c imm24) := rfl
theorem bx (c : Cond) (rm : Reg) :
    Statement (.bx c rm) := rfl
theorem blx (c : Cond) (rm : Reg) :
    Statement (.blx c rm) := rfl
theorem swi (c : Cond) (imm24 : BitVec 24) :
    Statement (.swi c imm24) := rfl
theorem bkpt (c : Cond) (imm16 : BitVec 16) :
    Statement (.bkpt c imm16) := rfl
theorem undefined (c : Cond) (bits : BitVec 28) :
    Statement (.undefined c bits) := rfl
theorem tLslImm (rd rs : LowReg) (imm5 : BitVec 5) :
    Statement (.tLslImm rd rs imm5) := rfl
theorem tLsrImm (rd rs : LowReg) (imm5 : BitVec 5) :
    Statement (.tLsrImm rd rs imm5) := rfl
theorem tAsrImm (rd rs : LowReg) (imm5 : BitVec 5) :
    Statement (.tAsrImm rd rs imm5) := rfl
theorem tAddReg (rd rs rn : LowReg) :
    Statement (.tAddReg rd rs rn) := rfl
theorem tSubReg (rd rs rn : LowReg) :
    Statement (.tSubReg rd rs rn) := rfl
theorem tAddImm3 (rd rs : LowReg) (imm3 : BitVec 3) :
    Statement (.tAddImm3 rd rs imm3) := rfl
theorem tSubImm3 (rd rs : LowReg) (imm3 : BitVec 3) :
    Statement (.tSubImm3 rd rs imm3) := rfl
theorem tMovImm (rd : LowReg) (imm8 : BitVec 8) :
    Statement (.tMovImm rd imm8) := rfl
theorem tCmpImm (rd : LowReg) (imm8 : BitVec 8) :
    Statement (.tCmpImm rd imm8) := rfl
theorem tAddImm8 (rd : LowReg) (imm8 : BitVec 8) :
    Statement (.tAddImm8 rd imm8) := rfl
theorem tSubImm8 (rd : LowReg) (imm8 : BitVec 8) :
    Statement (.tSubImm8 rd imm8) := rfl
theorem tAnd (rd rs : LowReg) :
    Statement (.tAnd rd rs) := rfl
theorem tEor (rd rs : LowReg) :
    Statement (.tEor rd rs) := rfl
theorem tLslReg (rd rs : LowReg) :
    Statement (.tLslReg rd rs) := rfl
theorem tLsrReg (rd rs : LowReg) :
    Statement (.tLsrReg rd rs) := rfl
theorem tAsrReg (rd rs : LowReg) :
    Statement (.tAsrReg rd rs) := rfl
theorem tAdc (rd rs : LowReg) :
    Statement (.tAdc rd rs) := rfl
theorem tSbc (rd rs : LowReg) :
    Statement (.tSbc rd rs) := rfl
theorem tRorReg (rd rs : LowReg) :
    Statement (.tRorReg rd rs) := rfl
theorem tTst (rd rs : LowReg) :
    Statement (.tTst rd rs) := rfl
theorem tNeg (rd rs : LowReg) :
    Statement (.tNeg rd rs) := rfl
theorem tCmpReg (rd rs : LowReg) :
    Statement (.tCmpReg rd rs) := rfl
theorem tCmn (rd rs : LowReg) :
    Statement (.tCmn rd rs) := rfl
theorem tOrr (rd rs : LowReg) :
    Statement (.tOrr rd rs) := rfl
theorem tMul (rd rs : LowReg) :
    Statement (.tMul rd rs) := rfl
theorem tBic (rd rs : LowReg) :
    Statement (.tBic rd rs) := rfl
theorem tMvn (rd rs : LowReg) :
    Statement (.tMvn rd rs) := rfl
theorem tAddHi (rd rs : Reg) :
    Statement (.tAddHi rd rs) := rfl
theorem tCmpHi (rd rs : Reg) :
    Statement (.tCmpHi rd rs) := rfl
theorem tMovHi (rd rs : Reg) :
    Statement (.tMovHi rd rs) := rfl
theorem tBx (rs : Reg) :
    Statement (.tBx rs) := rfl
theorem tBlx (rs : Reg) :
    Statement (.tBlx rs) := rfl
theorem tLdrPc (rd : LowReg) (imm8 : BitVec 8) :
    Statement (.tLdrPc rd imm8) := rfl
theorem tStrReg (rd rb ro : LowReg) :
    Statement (.tStrReg rd rb ro) := rfl
theorem tStrbReg (rd rb ro : LowReg) :
    Statement (.tStrbReg rd rb ro) := rfl
theorem tLdrReg (rd rb ro : LowReg) :
    Statement (.tLdrReg rd rb ro) := rfl
theorem tLdrbReg (rd rb ro : LowReg) :
    Statement (.tLdrbReg rd rb ro) := rfl
theorem tStrhReg (rd rb ro : LowReg) :
    Statement (.tStrhReg rd rb ro) := rfl
theorem tLdsbReg (rd rb ro : LowReg) :
    Statement (.tLdsbReg rd rb ro) := rfl
theorem tLdrhReg (rd rb ro : LowReg) :
    Statement (.tLdrhReg rd rb ro) := rfl
theorem tLdshReg (rd rb ro : LowReg) :
    Statement (.tLdshReg rd rb ro) := rfl
theorem tStrImm (rd rb : LowReg) (imm5 : BitVec 5) :
    Statement (.tStrImm rd rb imm5) := rfl
theorem tLdrImm (rd rb : LowReg) (imm5 : BitVec 5) :
    Statement (.tLdrImm rd rb imm5) := rfl
theorem tStrbImm (rd rb : LowReg) (imm5 : BitVec 5) :
    Statement (.tStrbImm rd rb imm5) := rfl
theorem tLdrbImm (rd rb : LowReg) (imm5 : BitVec 5) :
    Statement (.tLdrbImm rd rb imm5) := rfl
theorem tStrhImm (rd rb : LowReg) (imm5 : BitVec 5) :
    Statement (.tStrhImm rd rb imm5) := rfl
theorem tLdrhImm (rd rb : LowReg) (imm5 : BitVec 5) :
    Statement (.tLdrhImm rd rb imm5) := rfl
theorem tStrSp (rd : LowReg) (imm8 : BitVec 8) :
    Statement (.tStrSp rd imm8) := rfl
theorem tLdrSp (rd : LowReg) (imm8 : BitVec 8) :
    Statement (.tLdrSp rd imm8) := rfl
theorem tAddPc (rd : LowReg) (imm8 : BitVec 8) :
    Statement (.tAddPc rd imm8) := rfl
theorem tAddSp (rd : LowReg) (imm8 : BitVec 8) :
    Statement (.tAddSp rd imm8) := rfl
theorem tAddSpImm (imm7 : BitVec 7) :
    Statement (.tAddSpImm imm7) := rfl
theorem tSubSpImm (imm7 : BitVec 7) :
    Statement (.tSubSpImm imm7) := rfl
theorem tPush (r : Bool) (list : BitVec 8) :
    Statement (.tPush r list) := rfl
theorem tPop (r : Bool) (list : BitVec 8) :
    Statement (.tPop r list) := rfl
theorem tStmia (rb : LowReg) (list : BitVec 8) :
    Statement (.tStmia rb list) := rfl
theorem tLdmia (rb : LowReg) (list : BitVec 8) :
    Statement (.tLdmia rb list) := rfl
theorem tBCond (c : Cond) (soff8 : BitVec 8) :
    Statement (.tBCond c soff8) := rfl
theorem tSwi (imm8 : BitVec 8) :
    Statement (.tSwi imm8) := rfl
theorem tB (off11 : BitVec 11) :
    Statement (.tB off11) := rfl
theorem tBkpt (imm8 : BitVec 8) :
    Statement (.tBkpt imm8) := rfl
theorem tBlHigh (off11 : BitVec 11) :
    Statement (.tBlHigh off11) := rfl
theorem tBlLow (off11 : BitVec 11) :
    Statement (.tBlLow off11) := rfl
theorem tUndefined (half : Half) :
    Statement (.tUndefined half) := rfl

end Sys2Proof.Laws.EncodeWidth
end

