-- ==== Sys2Proof/Laws/Steps.lean ====
section
/-! SUPPORT. Sequences of steps: how one grows at its end, and that the number of steps fixes the state. -/

namespace Sys2Proof.Machine

@[simp] theorem stepsTo_zero (s t : State) : stepsTo 0 s t ↔ t = s := Iff.rfl

@[simp] theorem stepsTo_succ (k : Nat) (s t : State) :
    stepsTo (k + 1) s t ↔ ∃ u, step s = .next u ∧ stepsTo k u t := Iff.rfl

/-- One more step at the end. -/
theorem stepsTo_snoc {k : Nat} {s u t : State} (h : stepsTo k s u) (hu : step u = .next t) :
    stepsTo (k + 1) s t := by
  induction k generalizing s with
  | zero => exact ⟨t, by rw [← h]; exact hu, rfl⟩
  | succ k ih =>
    obtain ⟨v, hv, hk⟩ := h
    exact ⟨v, hv, ih hk⟩

/-- The state after `k` steps is one. -/
theorem stepsTo_unique {k : Nat} {s t t' : State} (h : stepsTo k s t) (h' : stepsTo k s t') : t = t' := by
  induction k generalizing s with
  | zero => exact h.trans h'.symm
  | succ k ih =>
    obtain ⟨u, hu, hk⟩ := h
    obtain ⟨v, hv, hk'⟩ := h'
    obtain rfl : u = v := by simpa [hu] using hv
    exact ih hk hk'

end Sys2Proof.Machine
end

