-- ==== Sys2Proof/Tests/Slice0.lean ====
section
/-! SUPPORT. Tests of the model: ill-formed terms that the checks refuse, words written out from the encodings of
30_encoding.md, one step for each instruction, and a witness for the hypotheses of every statement. Expected values
come from the spec: the step tests from the rows of 95_test_vectors.md section 2 unless a test names a rule, the
words from the field layouts R108 to R146. -/

namespace Sys2Proof.Machine.Tests

/-! ## WellFormed refuses -/

theorem test_wf_ldrd_odd : (Instr.ldrd .al .offset true 1 2 (.imm 0)).wellFormed = false := by decide
theorem test_wf_strd_odd : (Instr.strd .al .offset true 15 2 (.imm 0)).wellFormed = false := by decide
theorem test_wf_undefined : (Instr.undefined .al 0x1A00000#28).wellFormed = false := by decide
theorem test_wf_undefined_ok : (Instr.undefined .al 0x7F000F0#28).wellFormed = true := by decide
theorem test_wf_tUndefined : (Instr.tUndefined 0x4770#16).wellFormed = false := by decide
theorem test_wf_tUndefined_ok : (Instr.tUndefined 0xDE00#16).wellFormed = true := by decide
theorem test_wf_tBCond_al : (Instr.tBCond .al 0).wellFormed = false := by decide
theorem test_wf_tBCond_nv : (Instr.tBCond .nv 0).wellFormed = false := by decide

/-! ## Decoding, field by field -/

/-- R108, R109 (a): cond 0001, 00, I = 1, opcode 0100, S = 1, Rn = 2, Rd = 3, rot = 4, imm8 = 0xAB. -/
theorem test_decode_dp_imm :
    decodeArm (0b0001#4 ++ 0b00#2 ++ 1#1 ++ 0b0100#4 ++ 1#1 ++ 2#4 ++ 3#4 ++ 4#4 ++ 0xAB#8) =
      .add .ne true 3 2 (.imm 4 0xAB) := by decide

/-- R109 (b): I = 0, opcode 1111, S = 0, Rd = 5, imm5 = 7, type 10, bit 4 = 0, Rm = 6. -/
theorem test_decode_dp_shiftImm :
    decodeArm (0b1110#4 ++ 0b00#2 ++ 0#1 ++ 0b1111#4 ++ 0#1 ++ 0#4 ++ 5#4 ++ 7#5 ++ 0b10#2 ++ 0#1 ++ 6#4) =
      .mvn .al false 5 (.shiftImm .asr 7 6) := by decide

/-- R109 (c): I = 0, opcode 1010, S = 1, Rn = 1, Rs = 9, bit 7 = 0, type 11, bit 4 = 1, Rm = 8. -/
theorem test_decode_dp_shiftReg :
    decodeArm (0b1110#4 ++ 0b00#2 ++ 0#1 ++ 0b1010#4 ++ 1#1 ++ 1#4 ++ 0#4 ++ 9#4 ++ 0#1 ++ 0b11#2 ++ 1#1 ++ 8#4) =
      .cmp .al 1 (.shiftReg .ror 9 8) := by decide

/-- R110: 000000, A = 1, S = 1, Rd = 4, Rn = 3, Rs = 2, 1001, Rm = 1. -/
theorem test_decode_mla :
    decodeArm (0b1110#4 ++ 0b000000#6 ++ 1#1 ++ 1#1 ++ 4#4 ++ 3#4 ++ 2#4 ++ 0b1001#4 ++ 1#4) =
      .mla .al true 4 1 2 3 := by decide

/-- R111: 00001, U = 1, A = 0, S = 0, RdHi = 4, RdLo = 3, Rs = 2, 1001, Rm = 1. -/
theorem test_decode_smull :
    decodeArm (0b1110#4 ++ 0b00001#5 ++ 1#1 ++ 0#1 ++ 0#1 ++ 4#4 ++ 3#4 ++ 2#4 ++ 0b1001#4 ++ 1#4) =
      .smull .al false 3 4 1 2 := by decide

/-- R112: 00010, op = 00, 0, Rd = 4, Rn = 3, Rs = 2, 1, y = 1, x = 0, 0, Rm = 1. -/
theorem test_decode_smlaxy :
    decodeArm (0b1110#4 ++ 0b00010#5 ++ 0b00#2 ++ 0#1 ++ 4#4 ++ 3#4 ++ 2#4 ++ 1#1 ++ 1#1 ++ 0#1 ++ 0#1 ++ 1#4) =
      .smlaxy .al .bottom .top 4 1 2 3 := by decide

/-- R113: 00010, op = 10, 0, Rn = 3, Rd = 2, 0000, 0101, Rm = 1. -/
theorem test_decode_qdadd :
    decodeArm (0b1110#4 ++ 0b00010#5 ++ 0b10#2 ++ 0#1 ++ 3#4 ++ 2#4 ++ 0#4 ++ 0b0101#4 ++ 1#4) =
      .qdadd .al 2 1 3 := by decide

/-- R114: 00010, B = 1, 00, Rn = 3, Rd = 2, 0000, 1001, Rm = 1. -/
theorem test_decode_swpb :
    decodeArm (0b1110#4 ++ 0b00010#5 ++ 1#1 ++ 0b00#2 ++ 3#4 ++ 2#4 ++ 0#4 ++ 0b1001#4 ++ 1#4) =
      .swpb .al 2 1 3 := by decide

/-- R115: 000, P = 1, U = 0, bit 22 = 1, W = 1, L = 1, Rn = 3, Rd = 2, 0xA, 1, SH = 11, 1, 0x5. -/
theorem test_decode_ldrsh :
    decodeArm (0b1110#4 ++ 0b000#3 ++ 1#1 ++ 0#1 ++ 1#1 ++ 1#1 ++ 1#1 ++ 3#4 ++ 2#4 ++ 0xA#4 ++ 1#1 ++ 0b11#2 ++
      1#1 ++ 0x5#4) = .ldrsh .al .preIndexed false 2 3 (.imm 0xA5) := by decide

/-- R116: 01, I = 1, P = 0, U = 1, B = 1, W = 1, L = 1, Rn = 3, Rd = 2, imm5 = 4, type 01, 0, Rm = 1. -/
theorem test_decode_ldrbt :
    decodeArm (0b1110#4 ++ 0b01#2 ++ 1#1 ++ 0#1 ++ 1#1 ++ 1#1 ++ 1#1 ++ 1#1 ++ 3#4 ++ 2#4 ++ 4#5 ++ 0b01#2 ++ 0#1 ++
      1#4) = .ldrbt .al true 2 3 (.shifted .lsr 4 1) := by decide

/-- R117: 100, P = 1, U = 0, S = 1, W = 1, L = 0, Rn = 13, list. -/
theorem test_decode_stm :
    decodeArm (0b1110#4 ++ 0b100#3 ++ 1#1 ++ 0#1 ++ 1#1 ++ 1#1 ++ 0#1 ++ 13#4 ++ 0x8001#16) =
      .stm .al .db true true 13 0x8001 := by decide

/-- R118: 101, L = 1, imm24. -/
theorem test_decode_bl : decodeArm (0b0000#4 ++ 0b101#3 ++ 1#1 ++ 0xABCDEF#24) = .bl .eq 0xABCDEF := by decide

/-- R121: 00110, R = 1, 10, fields f and c, 1111, rot = 3, imm8 = 0x1F. -/
theorem test_decode_msr :
    decodeArm (0b1110#4 ++ 0b00110#5 ++ 1#1 ++ 0b10#2 ++ 0b1001#4 ++ 0b1111#4 ++ 3#4 ++ 0x1F#8) =
      .msrSpsr .al ⟨true, false, false, true⟩ (.imm 3 0x1F) := by decide

/-- R104: a coprocessor register transfer is undefined, and an odd doubleword register too (R312). -/
theorem test_decode_undefined :
    decodeArm 0xEE010F10#32 = .undefined .al 0xE010F10 ∧ decodeArm 0xE1C210D0#32 = .undefined .al 0x1C210D0 := by
  decide

/-- R126 to R130: 000 op = 10 offset 1 Rs 3 Rd 2; 00011 I = 1 op = 1 imm3 5 Rs 4 Rd 3; 001 op = 01 Rd 1 imm8;
010000 op = 1001 Rs 1 Rd 0; 010001 op = 10 H1 = 1 H2 = 0 Rs 0 Rd 0. -/
theorem test_decode_thumb_1to5 :
    decodeThumb (0b000#3 ++ 0b10#2 ++ 1#5 ++ 3#3 ++ 2#3) = .tAsrImm 2 3 1 ∧
    decodeThumb (0b00011#5 ++ 1#1 ++ 1#1 ++ 5#3 ++ 4#3 ++ 3#3) = .tSubImm3 3 4 5 ∧
    decodeThumb (0b001#3 ++ 0b01#2 ++ 1#3 ++ 5#8) = .tCmpImm 1 5 ∧
    decodeThumb (0b010000#6 ++ 0b1001#4 ++ 1#3 ++ 0#3) = .tNeg 0 1 ∧
    decodeThumb (0b010001#6 ++ 0b10#2 ++ 1#1 ++ 0#1 ++ 0#3 ++ 0#3) = .tMovHi 8 0 := by decide

/-- R131 to R138: 01001 Rd 0 imm8 1; 0101 L = 1 B = 0 0 Ro 2 Rb 1 Rd 0; 0101 H = 0 S = 1 1 Ro 2 Rb 1 Rd 0; 011 B = 1
L = 0 imm5 1 Rb 1 Rd 0; 1000 L = 0 imm5 1 Rb 1 Rd 0; 1001 L = 1 Rd 0 imm8 1; 1010 SP = 1 Rd 0 imm8 1; 10110000 S = 1
imm7 2. -/
theorem test_decode_thumb_6to13 :
    decodeThumb (0b01001#5 ++ 0#3 ++ 1#8) = .tLdrPc 0 1 ∧
    decodeThumb (0b0101#4 ++ 1#1 ++ 0#1 ++ 0#1 ++ 2#3 ++ 1#3 ++ 0#3) = .tLdrReg 0 1 2 ∧
    decodeThumb (0b0101#4 ++ 0#1 ++ 1#1 ++ 1#1 ++ 2#3 ++ 1#3 ++ 0#3) = .tLdsbReg 0 1 2 ∧
    decodeThumb (0b011#3 ++ 1#1 ++ 0#1 ++ 1#5 ++ 1#3 ++ 0#3) = .tStrbImm 0 1 1 ∧
    decodeThumb (0b1000#4 ++ 0#1 ++ 1#5 ++ 1#3 ++ 0#3) = .tStrhImm 0 1 1 ∧
    decodeThumb (0b1001#4 ++ 1#1 ++ 0#3 ++ 1#8) = .tLdrSp 0 1 ∧
    decodeThumb (0b1010#4 ++ 1#1 ++ 0#3 ++ 1#8) = .tAddSp 0 1 ∧
    decodeThumb (0b10110000#8 ++ 1#1 ++ 2#7) = .tSubSpImm 2 := by decide

/-- R139 to R146: 1011 L = 1 10 R = 1 list; 1100 L = 0 Rb 0 list; 1101 cond 0001 soff8; 11011111 imm8; 11100 off11;
10111110 imm8; 1111 H = 1 off11; 11101 is undefined. -/
theorem test_decode_thumb_14to19 :
    decodeThumb (0b1011#4 ++ 1#1 ++ 0b10#2 ++ 1#1 ++ 0x10#8) = .tPop true 0x10 ∧
    decodeThumb (0b1100#4 ++ 0#1 ++ 0#3 ++ 0x06#8) = .tStmia 0 0x06 ∧
    decodeThumb (0b1101#4 ++ 0b0001#4 ++ 0xFD#8) = .tBCond .ne 0xFD ∧
    decodeThumb (0b11011111#8 ++ 0x12#8) = .tSwi 0x12 ∧
    decodeThumb (0b11100#5 ++ 0x7FE#11) = .tB 0x7FE ∧
    decodeThumb (0b10111110#8 ++ 0xAB#8) = .tBkpt 0xAB ∧
    decodeThumb (0b1111#4 ++ 1#1 ++ 0x098#11) = .tBlLow 0x098 ∧
    decodeThumb (0b11101#5 ++ 0#11) = .tUndefined 0xE800 := by decide

/-! ## One step for each instruction -/

/-- The start states of 95_test_vectors.md: the word in the slot at its address, registers and memory words as
listed, every other register 0. -/
def start (cpsr addr word : Word) (regs : List (Reg × Word)) (mem : List (Word × Word)) : State :=
  let p := unpackPsr cpsr
  let s : State := { State.reset with cpsr := p, slot0 := word, slot1 := if p.t then 0x46C0 else 0xE1A00000, bus := [] }
  let s1 := regs.foldl (fun s r => s.setReg r.1 r.2) s
  let s2 := s1.setReg 15 (addr + 2 * widthOf p.t)
  { s2 with mem := mem.foldl (fun m w => m.writeSized .word w.1 w.2) [] }

/-- The step answers a next state with this property. -/
def stepGives (s : State) (p : State → Bool) : Bool :=
  match step s with
  | .next t => p t
  | .fault _ => false
  | .refused _ => false

/-- `ANDS r0, r1, r2`. -/
theorem test_and :
    stepGives (start 0x3000001F 0x8000 0xE0110002 [(1, 0xF0), (2, 0xF)] []) (fun t =>
      t.reg 0 == 0x0 && packPsr t.cpsr == 0x7000001F && t.instrAddr == 0x8004) = true := by
  decide

/-- `EORS r0, r1, r2`. -/
theorem test_eor :
    stepGives (start 0x1F 0x8000 0xE0310002 [(1, 0xFFFF0000), (2, 0xFFFF00)] []) (fun t =>
      t.reg 0 == 0xFF00FF00 && packPsr t.cpsr == 0x8000001F && t.instrAddr == 0x8004) = true := by
  decide

/-- `SUBS r0, r1, r2`. -/
theorem test_sub :
    stepGives (start 0x1F 0x8000 0xE0510002 [(1, 0x80000000), (2, 0x1)] []) (fun t =>
      t.reg 0 == 0x7FFFFFFF && packPsr t.cpsr == 0x3000001F && t.instrAddr == 0x8004) = true := by
  decide

/-- `RSBS r0, r1, #0`. -/
theorem test_rsb :
    stepGives (start 0x1F 0x8000 0xE2710000 [(1, 0x80000000)] []) (fun t =>
      t.reg 0 == 0x80000000 && packPsr t.cpsr == 0x9000001F && t.instrAddr == 0x8004) = true := by
  decide

/-- `ADDS r0, r1, r2`. -/
theorem test_add :
    stepGives (start 0x1F 0x8000 0xE0910002 [(1, 0x80000000), (2, 0x80000000)] []) (fun t =>
      t.reg 0 == 0x0 && packPsr t.cpsr == 0x7000001F && t.instrAddr == 0x8004) = true := by
  decide

/-- `ADCS r0, r1, r2`. -/
theorem test_adc :
    stepGives (start 0x2000001F 0x8000 0xE0B10002 [(1, 0x7FFFFFFF), (2, 0x0)] []) (fun t =>
      t.reg 0 == 0x80000000 && packPsr t.cpsr == 0x9000001F && t.instrAddr == 0x8004) = true := by
  decide

/-- `SBCS r0, r1, r2`. -/
theorem test_sbc :
    stepGives (start 0x1F 0x8000 0xE0D10002 [(1, 0x80000000), (2, 0x0)] []) (fun t =>
      t.reg 0 == 0x7FFFFFFF && packPsr t.cpsr == 0x3000001F && t.instrAddr == 0x8004) = true := by
  decide

/-- `RSCS r0, r1, r2`. -/
theorem test_rsc :
    stepGives (start 0x1F 0x8000 0xE0F10002 [(1, 0x1), (2, 0x3)] []) (fun t =>
      t.reg 0 == 0x1 && packPsr t.cpsr == 0x2000001F && t.instrAddr == 0x8004) = true := by
  decide

/-- `TST r1, r2, LSR #1`. -/
theorem test_tst :
    stepGives (start 0x1F 0x8000 0xE11100A2 [(1, 0x1), (2, 0x3)] []) (fun t =>
      packPsr t.cpsr == 0x2000001F && t.instrAddr == 0x8004) = true := by
  decide

/-- `TEQ r1, r2`. -/
theorem test_teq :
    stepGives (start 0x1000001F 0x8000 0xE1310002 [(1, 0x80000000), (2, 0x0)] []) (fun t =>
      packPsr t.cpsr == 0x9000001F && t.instrAddr == 0x8004) = true := by
  decide

/-- `CMP r1, #255`. -/
theorem test_cmp :
    stepGives (start 0x1F 0x8000 0xE35100FF [(1, 0xFF)] []) (fun t =>
      packPsr t.cpsr == 0x6000001F && t.instrAddr == 0x8004) = true := by
  decide

/-- `CMN r1, r2`. -/
theorem test_cmn :
    stepGives (start 0x1F 0x8000 0xE1710002 [(1, 0xFFFFFFFF), (2, 0x1)] []) (fun t =>
      packPsr t.cpsr == 0x6000001F && t.instrAddr == 0x8004) = true := by
  decide

/-- `ORRS r0, r1, r2, LSL #4`. -/
theorem test_orr :
    stepGives (start 0x1F 0x8000 0xE1910202 [(1, 0x1), (2, 0x10000000)] []) (fun t =>
      t.reg 0 == 0x1 && packPsr t.cpsr == 0x2000001F && t.instrAddr == 0x8004) = true := by
  decide

/-- `MOVS r0, #0`. -/
theorem test_mov :
    stepGives (start 0x3000001F 0x8000 0xE3B00000 [] []) (fun t =>
      t.reg 0 == 0x0 && packPsr t.cpsr == 0x7000001F && t.instrAddr == 0x8004) = true := by
  decide

/-- `BICS r0, r1, #0xFF`. -/
theorem test_bic :
    stepGives (start 0x2000001F 0x8000 0xE3D100FF [(1, 0x1FF)] []) (fun t =>
      t.reg 0 == 0x100 && packPsr t.cpsr == 0x2000001F && t.instrAddr == 0x8004) = true := by
  decide

/-- `MVNS r0, #0`. -/
theorem test_mvn :
    stepGives (start 0x1F 0x8000 0xE3F00000 [] []) (fun t =>
      t.reg 0 == 0xFFFFFFFF && packPsr t.cpsr == 0x8000001F && t.instrAddr == 0x8004) = true := by
  decide

/-- `MULS r0, r1, r2`. -/
theorem test_mul :
    stepGives (start 0x3000001F 0x8000 0xE0100291 [(1, 0xFFFFFFFF), (2, 0x2)] []) (fun t =>
      t.reg 0 == 0xFFFFFFFE && packPsr t.cpsr == 0xB000001F && t.instrAddr == 0x8004) = true := by
  decide

/-- `MLA r0, r1, r2, r3`. -/
theorem test_mla :
    stepGives (start 0x1F 0x8000 0xE0203291 [(1, 0x3), (2, 0x4), (3, 0xFFFFFFFF)] []) (fun t =>
      t.reg 0 == 0xB && packPsr t.cpsr == 0x0000001F && t.instrAddr == 0x8004) = true := by
  decide

/-- `UMULLS r0, r1, r2, r3`. -/
theorem test_umull :
    stepGives (start 0x3000001F 0x8000 0xE0910392 [(2, 0x80000000), (3, 0x2)] []) (fun t =>
      t.reg 0 == 0x0 && t.reg 1 == 0x1 && packPsr t.cpsr == 0x3000001F && t.instrAddr == 0x8004) = true := by
  decide

/-- `UMLAL r0, r1, r2, r3`. -/
theorem test_umlal :
    stepGives (start 0x1F 0x8000 0xE0A10392 [(0, 0xFFFFFFFF), (1, 0x0), (2, 0x1), (3, 0x1)] []) (fun t =>
      t.reg 0 == 0x0 && t.reg 1 == 0x1 && packPsr t.cpsr == 0x0000001F && t.instrAddr == 0x8004) = true := by
  decide

/-- `SMULLS r0, r1, r2, r3`. -/
theorem test_smull :
    stepGives (start 0x1F 0x8000 0xE0D10392 [(2, 0x80000000), (3, 0x2)] []) (fun t =>
      t.reg 0 == 0x0 && t.reg 1 == 0xFFFFFFFF && packPsr t.cpsr == 0x8000001F && t.instrAddr == 0x8004) = true := by
  decide

/-- `SMLALS r0, r1, r2, r3`. -/
theorem test_smlal :
    stepGives (start 0x1F 0x8000 0xE0F10392 [(0, 0x0), (1, 0x80000000), (2, 0xFFFFFFFF), (3, 0x1)]
      []) (fun t =>
      t.reg 0 == 0xFFFFFFFF && t.reg 1 == 0x7FFFFFFF && packPsr t.cpsr == 0x0000001F &&
        t.instrAddr == 0x8004) = true := by
  decide

/-- `SMLABB r0, r1, r2, r3`. -/
theorem test_smlaxy :
    stepGives (start 0x1F 0x8000 0xE1003281 [(1, 0x8000), (2, 0x8000), (3, 0x7FFF0000)] []) (fun t =>
      t.reg 0 == 0xBFFF0000 && packPsr t.cpsr == 0x0800001F && t.instrAddr == 0x8004) = true := by
  decide

/-- `SMLAWT r0, r1, r2, r3`. -/
theorem test_smlawy :
    stepGives (start 0x1F 0x8000 0xE12032C1 [(1, 0x7FFFFFFF), (2, 0x7FFF0000), (3, 0x7FFFFFFF)] []) (fun t =>
      t.reg 0 == 0xBFFF7FFE && packPsr t.cpsr == 0x0800001F && t.instrAddr == 0x8004) = true := by
  decide

/-- `SMULWB r0, r1, r2`. -/
theorem test_smulwy :
    stepGives (start 0x1F 0x8000 0xE12002A1 [(1, 0xFFFFFFFF), (2, 0x1)] []) (fun t =>
      t.reg 0 == 0xFFFFFFFF && packPsr t.cpsr == 0x0000001F && t.instrAddr == 0x8004) = true := by
  decide

/-- `SMLALTB r0, r1, r2, r3`. -/
theorem test_smlalxy :
    stepGives (start 0x1F 0x8000 0xE14103A2 [(0, 0x0), (1, 0x0), (2, 0xFFFF0000), (3, 0x1)] []) (fun t =>
      t.reg 0 == 0xFFFFFFFF && t.reg 1 == 0xFFFFFFFF && packPsr t.cpsr == 0x0000001F &&
        t.instrAddr == 0x8004) = true := by
  decide

/-- `SMULBB r0, r1, r2`. -/
theorem test_smulxy :
    stepGives (start 0x1F 0x8000 0xE1600281 [(1, 0x2FFFF), (2, 0x30004)] []) (fun t =>
      t.reg 0 == 0xFFFFFFFC && packPsr t.cpsr == 0x0000001F && t.instrAddr == 0x8004) = true := by
  decide

/-- `QADD r0, r1, r2`. -/
theorem test_qadd :
    stepGives (start 0xF000001F 0x8000 0xE1020051 [(1, 0x7FFFFFFF), (2, 0x7FFFFFFF)] []) (fun t =>
      t.reg 0 == 0x7FFFFFFF && packPsr t.cpsr == 0xF800001F && t.instrAddr == 0x8004) = true := by
  decide

/-- `QSUB r0, r1, r2`. -/
theorem test_qsub :
    stepGives (start 0x1F 0x8000 0xE1220051 [(1, 0x80000000), (2, 0x1)] []) (fun t =>
      t.reg 0 == 0x80000000 && packPsr t.cpsr == 0x0800001F && t.instrAddr == 0x8004) = true := by
  decide

/-- `QDADD r0, r1, r2`. -/
theorem test_qdadd :
    stepGives (start 0x1F 0x8000 0xE1420051 [(1, 0x1), (2, 0x40000000)] []) (fun t =>
      t.reg 0 == 0x7FFFFFFF && packPsr t.cpsr == 0x0800001F && t.instrAddr == 0x8004) = true := by
  decide

/-- `QDSUB r0, r1, r2`. -/
theorem test_qdsub :
    stepGives (start 0x1F 0x8000 0xE1620051 [(1, 0x0), (2, 0x80000000)] []) (fun t =>
      t.reg 0 == 0x7FFFFFFF && packPsr t.cpsr == 0x0800001F && t.instrAddr == 0x8004) = true := by
  decide

/-- `LDR r0, [r1, r2, RRX]`. -/
theorem test_ldr :
    stepGives (start 0x2000001F 0x8000 0xE7910062 [(1, 0x80000100), (2, 0x0)]
      [(0x100, 0x44332211), (0x104, 0x88776655)]) (fun t =>
      t.reg 0 == 0x44332211 && t.reg 1 == 0x80000100 && packPsr t.cpsr == 0x2000001F &&
        t.instrAddr == 0x8004) = true := by
  decide

/-- `STR r0, [r1, #2]`. -/
theorem test_str :
    stepGives (start 0x1F 0x8000 0xE5810002 [(0, 0xAABBCCDD), (1, 0x100)] []) (fun t =>
      t.reg 1 == 0x100 && packPsr t.cpsr == 0x0000001F && t.instrAddr == 0x8004 &&
        t.mem.readSized .word 0x100 == 0xAABBCCDD) = true := by
  decide

/-- `LDRB r0, [r1, #3]`. -/
theorem test_ldrb :
    stepGives (start 0x1F 0x8000 0xE5D10003 [(1, 0x100)] [(0x100, 0x44332211), (0x104, 0x88776655)]) (fun t =>
      t.reg 0 == 0x44 && packPsr t.cpsr == 0x0000001F && t.instrAddr == 0x8004) = true := by
  decide

/-- `STRB r0, [r1], #-1`. -/
theorem test_strb :
    stepGives (start 0x1F 0x8000 0xE4410001 [(0, 0xAABBCCDD), (1, 0x103)] []) (fun t =>
      t.reg 1 == 0x102 && packPsr t.cpsr == 0x0000001F && t.instrAddr == 0x8004 &&
        t.mem.readSized .byte 0x103 == 0xDD) = true := by
  decide

/-- `STRT r0, [r1], #4`. -/
theorem test_strt :
    stepGives (start 0x1F 0x8000 0xE4A10004 [(0, 0x11), (1, 0x100)] []) (fun t =>
      t.reg 1 == 0x104 && packPsr t.cpsr == 0x0000001F && t.instrAddr == 0x8004 &&
        t.mem.readSized .word 0x100 == 0x11) = true := by
  decide

/-- `LDRBT r0, [r1], #1`. -/
theorem test_ldrbt :
    stepGives (start 0x1F 0x8000 0xE4F10001 [(1, 0x101)] [(0x100, 0x44332211), (0x104, 0x88776655)]) (fun t =>
      t.reg 0 == 0x22 && t.reg 1 == 0x102 && packPsr t.cpsr == 0x0000001F && t.instrAddr == 0x8004) = true := by
  decide

/-- `LDRH r0, [r1], r2`. -/
theorem test_ldrh :
    stepGives (start 0x1F 0x8000 0xE09100B2 [(1, 0x100), (2, 0x10)] [(0x100, 0x8001BBAA)]) (fun t =>
      t.reg 0 == 0xBBAA && t.reg 1 == 0x110 && packPsr t.cpsr == 0x0000001F && t.instrAddr == 0x8004) = true := by
  decide

/-- `STRH r0, [r1, #3]`. -/
theorem test_strh :
    stepGives (start 0x1F 0x8000 0xE1C100B3 [(0, 0xAABBCCDD), (1, 0x100)] []) (fun t =>
      t.reg 1 == 0x100 && packPsr t.cpsr == 0x0000001F && t.instrAddr == 0x8004 &&
        t.mem.readSized .half 0x102 == 0xCCDD) = true := by
  decide

/-- `LDRSB r0, [r1, #3]`. -/
theorem test_ldrsb :
    stepGives (start 0x1F 0x8000 0xE1D100D3 [(1, 0x100)] [(0x100, 0x8001BBAA)]) (fun t =>
      t.reg 0 == 0xFFFFFF80 && packPsr t.cpsr == 0x0000001F && t.instrAddr == 0x8004) = true := by
  decide

/-- `LDRSH r0, [r1, #2]`. -/
theorem test_ldrsh :
    stepGives (start 0x1F 0x8000 0xE1D100F2 [(1, 0x100)] [(0x100, 0x8001BBAA)]) (fun t =>
      t.reg 0 == 0xFFFF8001 && packPsr t.cpsr == 0x0000001F && t.instrAddr == 0x8004) = true := by
  decide

/-- `LDRD r2, [r1, #4]`. -/
theorem test_ldrd :
    stepGives (start 0x1F 0x8000 0xE1C120D4 [(1, 0xFC)] [(0x100, 0x44332211), (0x104, 0x88776655)]) (fun t =>
      t.reg 2 == 0x44332211 && t.reg 3 == 0x88776655 && packPsr t.cpsr == 0x0000001F &&
        t.instrAddr == 0x8004) = true := by
  decide

/-- `STRD r2, [r1], #8`. -/
theorem test_strd :
    stepGives (start 0x1F 0x8000 0xE0C120F8 [(1, 0x100), (2, 0x11), (3, 0x22)] []) (fun t =>
      t.reg 1 == 0x108 && packPsr t.cpsr == 0x0000001F && t.instrAddr == 0x8004 &&
        t.mem.readSized .word 0x100 == 0x11 && t.mem.readSized .word 0x104 == 0x22) = true := by
  decide

/-- `LDMIA r0!, (r1, pc)`. -/
theorem test_ldm :
    stepGives (start 0x1F 0x8000 0xE8B08002 [(0, 0x1000)] [(0x1000, 0x7), (0x1004, 0x9003)]) (fun t =>
      t.reg 0 == 0x1008 && t.reg 1 == 0x7 && packPsr t.cpsr == 0x0000001F && t.instrAddr == 0x9000) = true := by
  decide

/-- `STMIA r0!, (r1, r2, r3)`. -/
theorem test_stm :
    stepGives (start 0x1F 0x8000 0xE8A0000E [(0, 0x1010), (1, 0x11), (2, 0x22), (3, 0x33)] []) (fun t =>
      t.reg 0 == 0x101C && packPsr t.cpsr == 0x0000001F && t.instrAddr == 0x8004 &&
        t.mem.readSized .word 0x1010 == 0x11 && t.mem.readSized .word 0x1014 == 0x22 &&
        t.mem.readSized .word 0x1018 == 0x33) = true := by
  decide

/-- `MRS r0, CPSR`. -/
theorem test_mrs :
    stepGives (start 0xF8000010 0x8000 0xE10F0000 [] []) (fun t =>
      t.reg 0 == 0xF8000010 && packPsr t.cpsr == 0xF8000010 && t.instrAddr == 0x8004) = true := by
  decide

/-- `MSR CPSR_fc, r0`. -/
theorem test_msrCpsr :
    stepGives (start 0x10 0x8000 0xE129F000 [(0, 0xFFFFFFFF)] []) (fun t =>
      packPsr t.cpsr == 0xF8000010 && t.instrAddr == 0x8004) = true := by
  decide

/-- `MSR SPSR_fc, r0`. -/
theorem test_msrSpsr :
    stepGives (start 0x93 0x8000 0xE169F000 [(0, 0x600000FF)] []) (fun t =>
      packPsr t.cpsr == 0x00000093 && t.instrAddr == 0x8004) = true := by
  decide

/-- `B to A+4`. -/
theorem test_b :
    stepGives (start 0x1F 0x8000 0xEAFFFFFF [] []) (fun t =>
      packPsr t.cpsr == 0x0000001F && t.instrAddr == 0x8004) = true := by
  decide

/-- `BL +0x10`. -/
theorem test_bl :
    stepGives (start 0x1F 0x8000 0xEB000002 [] []) (fun t =>
      t.reg 14 == 0x8004 && packPsr t.cpsr == 0x0000001F && t.instrAddr == 0x8010) = true := by
  decide

/-- `BX r0`. -/
theorem test_bx :
    stepGives (start 0x1F 0x8000 0xE12FFF10 [(0, 0x8000101)] []) (fun t =>
      packPsr t.cpsr == 0x0000003F && t.instrAddr == 0x8000100) = true := by
  decide

/-- `BLX r2`. -/
theorem test_blx :
    stepGives (start 0x1F 0x8000 0xE12FFF32 [(2, 0x9001)] []) (fun t =>
      t.reg 14 == 0x8004 && packPsr t.cpsr == 0x0000003F && t.instrAddr == 0x9000) = true := by
  decide

/-- `SWI 0x123456`. -/
theorem test_swi :
    stepGives (start 0x60000010 0x8000 0xEF123456 [] []) (fun t =>
      t.reg 14 == 0x8004 && packPsr t.cpsr == 0x60000093 && t.instrAddr == 0x8) = true := by
  decide

/-- `BKPT 0xABCD`. -/
theorem test_bkpt :
    stepGives (start 0x1F 0x8000 0xE12ABC7D [] []) (fun t =>
      t.reg 14 == 0x8004 && packPsr t.cpsr == 0x00000097 && t.instrAddr == 0xC) = true := by
  decide

/-- `LDRD r3, [r1]`. -/
theorem test_undefined :
    stepGives (start 0x1F 0x8000 0xE1C130D0 [(1, 0x100)] [(0x100, 0x44332211), (0x104, 0x88776655)]) (fun t =>
      t.reg 14 == 0x8004 && packPsr t.cpsr == 0x0000009B && t.instrAddr == 0x4) = true := by
  decide

/-- `LSL r0, r1, #0`. -/
theorem test_tLslImm :
    stepGives (start 0x2000003F 0x8000 0x0008 [(1, 0x80000001)] []) (fun t =>
      t.reg 0 == 0x80000001 && packPsr t.cpsr == 0xA000003F && t.instrAddr == 0x8002) = true := by
  decide

/-- `LSR r0, r1, #1`. -/
theorem test_tLsrImm :
    stepGives (start 0x3F 0x8000 0x0848 [(1, 0x80000001)] []) (fun t =>
      t.reg 0 == 0x40000000 && packPsr t.cpsr == 0x2000003F && t.instrAddr == 0x8002) = true := by
  decide

/-- `ASR r0, r1, #4`. -/
theorem test_tAsrImm :
    stepGives (start 0x3F 0x8000 0x1108 [(1, 0x80000008)] []) (fun t =>
      t.reg 0 == 0xF8000000 && packPsr t.cpsr == 0xA000003F && t.instrAddr == 0x8002) = true := by
  decide

/-- `ADD r0, r1, r2`. -/
theorem test_tAddReg :
    stepGives (start 0x3F 0x8000 0x1888 [(1, 0x7FFFFFFF), (2, 0x1)] []) (fun t =>
      t.reg 0 == 0x80000000 && packPsr t.cpsr == 0x9000003F && t.instrAddr == 0x8002) = true := by
  decide

/-- `SUB r0, r1, r2`. -/
theorem test_tSubReg :
    stepGives (start 0x3F 0x8000 0x1A88 [(1, 0x5), (2, 0x5)] []) (fun t =>
      t.reg 0 == 0x0 && packPsr t.cpsr == 0x6000003F && t.instrAddr == 0x8002) = true := by
  decide

/-- `ADD r0, r1, #7`. -/
theorem test_tAddImm3 :
    stepGives (start 0x3F 0x8000 0x1DC8 [(1, 0xFFFFFFF9)] []) (fun t =>
      t.reg 0 == 0x0 && packPsr t.cpsr == 0x6000003F && t.instrAddr == 0x8002) = true := by
  decide

/-- `SUB r0, r1, #1`. -/
theorem test_tSubImm3 :
    stepGives (start 0x3F 0x8000 0x1E48 [(1, 0x80000000)] []) (fun t =>
      t.reg 0 == 0x7FFFFFFF && packPsr t.cpsr == 0x3000003F && t.instrAddr == 0x8002) = true := by
  decide

/-- `MOV r0, #255`. -/
theorem test_tMovImm :
    stepGives (start 0xF000003F 0x8000 0x20FF [] []) (fun t =>
      t.reg 0 == 0xFF && packPsr t.cpsr == 0x3000003F && t.instrAddr == 0x8002) = true := by
  decide

/-- `CMP r0, #1`. -/
theorem test_tCmpImm :
    stepGives (start 0x3F 0x8000 0x2801 [(0, 0x1)] []) (fun t =>
      packPsr t.cpsr == 0x6000003F && t.instrAddr == 0x8002) = true := by
  decide

/-- `ADD r0, #255`. -/
theorem test_tAddImm8 :
    stepGives (start 0x3F 0x8000 0x30FF [(0, 0xFFFFFF01)] []) (fun t =>
      t.reg 0 == 0x0 && packPsr t.cpsr == 0x6000003F && t.instrAddr == 0x8002) = true := by
  decide

/-- `SUB r0, #1`. -/
theorem test_tSubImm8 :
    stepGives (start 0x3F 0x8000 0x3801 [(0, 0x0)] []) (fun t =>
      t.reg 0 == 0xFFFFFFFF && packPsr t.cpsr == 0x8000003F && t.instrAddr == 0x8002) = true := by
  decide

/-- `AND r0, r1`. -/
theorem test_tAnd :
    stepGives (start 0x3000003F 0x8000 0x4008 [(0, 0xF0F0F0F0), (1, 0xF0F0F0F)] []) (fun t =>
      t.reg 0 == 0x0 && packPsr t.cpsr == 0x7000003F && t.instrAddr == 0x8002) = true := by
  decide

/-- `EOR r0, r1`. -/
theorem test_tEor :
    stepGives (start 0x3F 0x8000 0x4048 [(0, 0xFFFF0000), (1, 0x7FFF0000)] []) (fun t =>
      t.reg 0 == 0x80000000 && packPsr t.cpsr == 0x8000003F && t.instrAddr == 0x8002) = true := by
  decide

/-- `LSL r0, r1`. -/
theorem test_tLslReg :
    stepGives (start 0x2000003F 0x8000 0x4088 [(0, 0x80000001), (1, 0x0)] []) (fun t =>
      t.reg 0 == 0x80000001 && packPsr t.cpsr == 0xA000003F && t.instrAddr == 0x8002) = true := by
  decide

/-- `LSR r0, r1`. -/
theorem test_tLsrReg :
    stepGives (start 0x3F 0x8000 0x40C8 [(0, 0x80000001), (1, 0x1)] []) (fun t =>
      t.reg 0 == 0x40000000 && packPsr t.cpsr == 0x2000003F && t.instrAddr == 0x8002) = true := by
  decide

/-- `ASR r0, r1`. -/
theorem test_tAsrReg :
    stepGives (start 0x3F 0x8000 0x4108 [(0, 0x80000000), (1, 0x28)] []) (fun t =>
      t.reg 0 == 0xFFFFFFFF && packPsr t.cpsr == 0xA000003F && t.instrAddr == 0x8002) = true := by
  decide

/-- `ADC r0, r1`. -/
theorem test_tAdc :
    stepGives (start 0x2000003F 0x8000 0x4148 [(0, 0xFFFFFFFF), (1, 0x0)] []) (fun t =>
      t.reg 0 == 0x0 && packPsr t.cpsr == 0x6000003F && t.instrAddr == 0x8002) = true := by
  decide

/-- `SBC r0, r1`. -/
theorem test_tSbc :
    stepGives (start 0x2000003F 0x8000 0x4188 [(0, 0x5), (1, 0x5)] []) (fun t =>
      t.reg 0 == 0x0 && packPsr t.cpsr == 0x6000003F && t.instrAddr == 0x8002) = true := by
  decide

/-- `ROR r0, r1`. -/
theorem test_tRorReg :
    stepGives (start 0x3F 0x8000 0x41C8 [(0, 0x80000001), (1, 0x1)] []) (fun t =>
      t.reg 0 == 0xC0000000 && packPsr t.cpsr == 0xA000003F && t.instrAddr == 0x8002) = true := by
  decide

/-- `TST r0, r1`. -/
theorem test_tTst :
    stepGives (start 0x3000003F 0x8000 0x4208 [(0, 0xF0), (1, 0xF)] []) (fun t =>
      packPsr t.cpsr == 0x7000003F && t.instrAddr == 0x8002) = true := by
  decide

/-- `NEG r0, r1`. -/
theorem test_tNeg :
    stepGives (start 0x3F 0x8000 0x4248 [(1, 0x80000000)] []) (fun t =>
      t.reg 0 == 0x80000000 && packPsr t.cpsr == 0x9000003F && t.instrAddr == 0x8002) = true := by
  decide

/-- `CMP r0, r1`. -/
theorem test_tCmpReg :
    stepGives (start 0x3F 0x8000 0x4288 [(0, 0x80000000), (1, 0x1)] []) (fun t =>
      packPsr t.cpsr == 0x3000003F && t.instrAddr == 0x8002) = true := by
  decide

/-- `CMN r0, r1`. -/
theorem test_tCmn :
    stepGives (start 0x3F 0x8000 0x42C8 [(0, 0xFFFFFFFF), (1, 0x1)] []) (fun t =>
      packPsr t.cpsr == 0x6000003F && t.instrAddr == 0x8002) = true := by
  decide

/-- `ORR r0, r1`. -/
theorem test_tOrr :
    stepGives (start 0x3F 0x8000 0x4308 [(0, 0x80000000), (1, 0x1)] []) (fun t =>
      t.reg 0 == 0x80000001 && packPsr t.cpsr == 0x8000003F && t.instrAddr == 0x8002) = true := by
  decide

/-- `MUL r0, r1`. -/
theorem test_tMul :
    stepGives (start 0x3000003F 0x8000 0x4348 [(0, 0x10000), (1, 0x10000)] []) (fun t =>
      t.reg 0 == 0x0 && packPsr t.cpsr == 0x7000003F && t.instrAddr == 0x8002) = true := by
  decide

/-- `BIC r0, r1`. -/
theorem test_tBic :
    stepGives (start 0x3F 0x8000 0x4388 [(0, 0xFF), (1, 0xF)] []) (fun t =>
      t.reg 0 == 0xF0 && packPsr t.cpsr == 0x0000003F && t.instrAddr == 0x8002) = true := by
  decide

/-- `MVN r0, r1`. -/
theorem test_tMvn :
    stepGives (start 0x3000003F 0x8000 0x43C8 [(1, 0x0)] []) (fun t =>
      t.reg 0 == 0xFFFFFFFF && packPsr t.cpsr == 0xB000003F && t.instrAddr == 0x8002) = true := by
  decide

/-- `ADD r0, r8`. -/
theorem test_tAddHi :
    stepGives (start 0xF000003F 0x8000 0x4440 [(0, 0xFFFFFFFF), (8, 0x1)] []) (fun t =>
      t.reg 0 == 0x0 && packPsr t.cpsr == 0xF000003F && t.instrAddr == 0x8002) = true := by
  decide

/-- `CMP r8, r9`. -/
theorem test_tCmpHi :
    stepGives (start 0x3F 0x8000 0x45C8 [(8, 0x5), (9, 0x5)] []) (fun t =>
      packPsr t.cpsr == 0x6000003F && t.instrAddr == 0x8002) = true := by
  decide

/-- `MOV r0, r8`. -/
theorem test_tMovHi :
    stepGives (start 0xF000003F 0x8000 0x4640 [(8, 0x0)] []) (fun t =>
      t.reg 0 == 0x0 && packPsr t.cpsr == 0xF000003F && t.instrAddr == 0x8002) = true := by
  decide

/-- `BX r0`. -/
theorem test_tBx :
    stepGives (start 0x3F 0x8000 0x4700 [(0, 0x9000)] []) (fun t =>
      packPsr t.cpsr == 0x0000001F && t.instrAddr == 0x9000) = true := by
  decide

/-- `BLX r2`. -/
theorem test_tBlx :
    stepGives (start 0x3F 0x8000 0x4790 [(2, 0x9000)] []) (fun t =>
      t.reg 14 == 0x8003 && packPsr t.cpsr == 0x0000001F && t.instrAddr == 0x9000) = true := by
  decide

/-- `LDR r0, [pc, #4]`. -/
theorem test_tLdrPc :
    stepGives (start 0x3F 0x8000 0x4801 [] [(0x8008, 0xCAFEBABE)]) (fun t =>
      t.reg 0 == 0xCAFEBABE && packPsr t.cpsr == 0x0000003F && t.instrAddr == 0x8002) = true := by
  decide

/-- `STR r0, [r1, r2]`. -/
theorem test_tStrReg :
    stepGives (start 0x3F 0x8000 0x5088 [(0, 0xDEADBEEF), (1, 0x1000), (2, 0x4)] []) (fun t =>
      packPsr t.cpsr == 0x0000003F && t.instrAddr == 0x8002 && t.mem.readSized .word 0x1004 == 0xDEADBEEF) = true := by
  decide

/-- `STRB r0, [r1, r2]`. -/
theorem test_tStrbReg :
    stepGives (start 0x3F 0x8000 0x5488 [(0, 0xDEADBEEF), (1, 0x1000), (2, 0x3)] []) (fun t =>
      packPsr t.cpsr == 0x0000003F && t.instrAddr == 0x8002 && t.mem.readSized .byte 0x1003 == 0xEF) = true := by
  decide

/-- `LDR r0, [r1, r2]`. -/
theorem test_tLdrReg :
    stepGives (start 0x3F 0x8000 0x5888 [(1, 0x1000), (2, 0x4)]
      [(0x1000, 0x44332211), (0x1004, 0x88776655), (0x1008, 0xCCBBAA99)]) (fun t =>
      t.reg 0 == 0x88776655 && packPsr t.cpsr == 0x0000003F && t.instrAddr == 0x8002) = true := by
  decide

/-- `LDRB r0, [r1, r2]`. -/
theorem test_tLdrbReg :
    stepGives (start 0x3F 0x8000 0x5C88 [(1, 0x1000), (2, 0x7)]
      [(0x1000, 0x44332211), (0x1004, 0x88776655), (0x1008, 0xCCBBAA99)]) (fun t =>
      t.reg 0 == 0x88 && packPsr t.cpsr == 0x0000003F && t.instrAddr == 0x8002) = true := by
  decide

/-- `STRH r0, [r1, r2]`. -/
theorem test_tStrhReg :
    stepGives (start 0x3F 0x8000 0x5288 [(0, 0xDEADBEEF), (1, 0x1000), (2, 0x2)] []) (fun t =>
      packPsr t.cpsr == 0x0000003F && t.instrAddr == 0x8002 && t.mem.readSized .half 0x1002 == 0xBEEF) = true := by
  decide

/-- `LDSB r0, [r1, r2]`. -/
theorem test_tLdsbReg :
    stepGives (start 0x3F 0x8000 0x5688 [(1, 0x1000), (2, 0x7)]
      [(0x1000, 0x44332211), (0x1004, 0x88776655), (0x1008, 0xCCBBAA99)]) (fun t =>
      t.reg 0 == 0xFFFFFF88 && packPsr t.cpsr == 0x0000003F && t.instrAddr == 0x8002) = true := by
  decide

/-- `LDRH r0, [r1, r2]`. -/
theorem test_tLdrhReg :
    stepGives (start 0x3F 0x8000 0x5A88 [(1, 0x1000), (2, 0x5)]
      [(0x1000, 0x44332211), (0x1004, 0x88776655), (0x1008, 0xCCBBAA99)]) (fun t =>
      t.reg 0 == 0x55000066 && packPsr t.cpsr == 0x0000003F && t.instrAddr == 0x8002) = true := by
  decide

/-- `LDSH r0, [r1, r2]`. -/
theorem test_tLdshReg :
    stepGives (start 0x3F 0x8000 0x5E88 [(1, 0x1000), (2, 0x6)]
      [(0x1000, 0x44332211), (0x1004, 0x88776655), (0x1008, 0xCCBBAA99)]) (fun t =>
      t.reg 0 == 0xFFFF8877 && packPsr t.cpsr == 0x0000003F && t.instrAddr == 0x8002) = true := by
  decide

/-- `STR r0, [r1, #4]`. -/
theorem test_tStrImm :
    stepGives (start 0x3F 0x8000 0x6048 [(0, 0xDEADBEEF), (1, 0x1000)] []) (fun t =>
      packPsr t.cpsr == 0x0000003F && t.instrAddr == 0x8002 && t.mem.readSized .word 0x1004 == 0xDEADBEEF) = true := by
  decide

/-- `LDR r0, [r1, #8]`. -/
theorem test_tLdrImm :
    stepGives (start 0x3F 0x8000 0x6888 [(1, 0x1000)]
      [(0x1000, 0x44332211), (0x1004, 0x88776655), (0x1008, 0xCCBBAA99)]) (fun t =>
      t.reg 0 == 0xCCBBAA99 && packPsr t.cpsr == 0x0000003F && t.instrAddr == 0x8002) = true := by
  decide

/-- `STRB r0, [r1, #31]`. -/
theorem test_tStrbImm :
    stepGives (start 0x3F 0x8000 0x77C8 [(0, 0x1234), (1, 0x1000)] []) (fun t =>
      packPsr t.cpsr == 0x0000003F && t.instrAddr == 0x8002 && t.mem.readSized .byte 0x101F == 0x34) = true := by
  decide

/-- `LDRB r0, [r1, #5]`. -/
theorem test_tLdrbImm :
    stepGives (start 0x3F 0x8000 0x7948 [(1, 0x1000)]
      [(0x1000, 0x44332211), (0x1004, 0x88776655), (0x1008, 0xCCBBAA99)]) (fun t =>
      t.reg 0 == 0x66 && packPsr t.cpsr == 0x0000003F && t.instrAddr == 0x8002) = true := by
  decide

/-- `STRH r0, [r1, #2]`. -/
theorem test_tStrhImm :
    stepGives (start 0x3F 0x8000 0x8048 [(0, 0xDEADBEEF), (1, 0x1000)] []) (fun t =>
      packPsr t.cpsr == 0x0000003F && t.instrAddr == 0x8002 && t.mem.readSized .half 0x1002 == 0xBEEF) = true := by
  decide

/-- `LDRH r0, [r1, #6]`. -/
theorem test_tLdrhImm :
    stepGives (start 0x3F 0x8000 0x88C8 [(1, 0x1001)]
      [(0x1000, 0x44332211), (0x1004, 0x88776655), (0x1008, 0xCCBBAA99)]) (fun t =>
      t.reg 0 == 0x77000088 && packPsr t.cpsr == 0x0000003F && t.instrAddr == 0x8002) = true := by
  decide

/-- `STR r0, [sp, #8]`. -/
theorem test_tStrSp :
    stepGives (start 0x3F 0x8000 0x9002 [(0, 0xDEADBEEF), (13, 0x1000)] []) (fun t =>
      packPsr t.cpsr == 0x0000003F && t.instrAddr == 0x8002 && t.mem.readSized .word 0x1008 == 0xDEADBEEF) = true := by
  decide

/-- `LDR r0, [sp, #4]`. -/
theorem test_tLdrSp :
    stepGives (start 0x3F 0x8000 0x9801 [(13, 0x1000)]
      [(0x1000, 0x44332211), (0x1004, 0x88776655), (0x1008, 0xCCBBAA99)]) (fun t =>
      t.reg 0 == 0x88776655 && packPsr t.cpsr == 0x0000003F && t.instrAddr == 0x8002) = true := by
  decide

/-- `ADD r0, pc, #4`. -/
theorem test_tAddPc :
    stepGives (start 0x3F 0x8000 0xA001 [] []) (fun t =>
      t.reg 0 == 0x8008 && packPsr t.cpsr == 0x0000003F && t.instrAddr == 0x8002) = true := by
  decide

/-- `ADD r0, sp, #8`. -/
theorem test_tAddSp :
    stepGives (start 0x3F 0x8000 0xA802 [(13, 0x1001)] []) (fun t =>
      t.reg 0 == 0x1009 && packPsr t.cpsr == 0x0000003F && t.instrAddr == 0x8002) = true := by
  decide

/-- `ADD sp, #16`. -/
theorem test_tAddSpImm :
    stepGives (start 0xF000003F 0x8000 0xB004 [(13, 0x1000)] []) (fun t =>
      t.reg 13 == 0x1010 && packPsr t.cpsr == 0xF000003F && t.instrAddr == 0x8002) = true := by
  decide

/-- `SUB sp, #4`. -/
theorem test_tSubSpImm :
    stepGives (start 0x3F 0x8000 0xB081 [(13, 0x0)] []) (fun t =>
      t.reg 13 == 0xFFFFFFFC && packPsr t.cpsr == 0x0000003F && t.instrAddr == 0x8002) = true := by
  decide

/-- `PUSH (r0, lr)`. -/
theorem test_tPush :
    stepGives (start 0x3F 0x8000 0xB501 [(0, 0xA0), (13, 0x1010), (14, 0x8123)] []) (fun t =>
      t.reg 13 == 0x1008 && packPsr t.cpsr == 0x0000003F && t.instrAddr == 0x8002 &&
        t.mem.readSized .word 0x1008 == 0xA0 && t.mem.readSized .word 0x100C == 0x8123) = true := by
  decide

/-- `POP (r0, pc)`. -/
theorem test_tPop :
    stepGives (start 0x3F 0x8000 0xBD01 [(13, 0x1000)] [(0x1000, 0x11), (0x1004, 0x9001)]) (fun t =>
      t.reg 0 == 0x11 && t.reg 13 == 0x1008 && packPsr t.cpsr == 0x0000003F && t.instrAddr == 0x9000) = true := by
  decide

/-- `STMIA r0!, (r0, r1)`. -/
theorem test_tStmia :
    stepGives (start 0x3F 0x8000 0xC003 [(0, 0x1000), (1, 0xA1)] []) (fun t =>
      t.reg 0 == 0x1008 && packPsr t.cpsr == 0x0000003F && t.instrAddr == 0x8002 &&
        t.mem.readSized .word 0x1000 == 0x1000 && t.mem.readSized .word 0x1004 == 0xA1) = true := by
  decide

/-- `LDMIA r0!, (r1, r2)`. -/
theorem test_tLdmia :
    stepGives (start 0x3F 0x8000 0xC806 [(0, 0x1000)]
      [(0x1000, 0x44332211), (0x1004, 0x88776655), (0x1008, 0xCCBBAA99)]) (fun t =>
      t.reg 0 == 0x1008 && t.reg 1 == 0x44332211 && t.reg 2 == 0x88776655 &&
        packPsr t.cpsr == 0x0000003F && t.instrAddr == 0x8002) = true := by
  decide

/-- `BEQ +4 (to 0x8008)`. -/
theorem test_tBCond :
    stepGives (start 0x4000003F 0x8000 0xD002 [] []) (fun t =>
      packPsr t.cpsr == 0x4000003F && t.instrAddr == 0x8008) = true := by
  decide

/-- `SWI 0x42`. -/
theorem test_tSwi :
    stepGives (start 0x60000030 0x8000 0xDF42 [] []) (fun t =>
      t.reg 14 == 0x8002 && packPsr t.cpsr == 0x60000093 && t.instrAddr == 0x8) = true := by
  decide

/-- `B +0 (to 0x8004)`. -/
theorem test_tB :
    stepGives (start 0x3F 0x8000 0xE000 [] []) (fun t =>
      packPsr t.cpsr == 0x0000003F && t.instrAddr == 0x8004) = true := by
  decide

/-- `BKPT 0xAB`. -/
theorem test_tBkpt :
    stepGives (start 0x3F 0x8000 0xBEAB [] []) (fun t =>
      t.reg 14 == 0x8004 && packPsr t.cpsr == 0x00000097 && t.instrAddr == 0xC) = true := by
  decide

/-- `BL high half, offset11 = 0`. -/
theorem test_tBlHigh :
    stepGives (start 0x3F 0x8000 0xF000 [] []) (fun t =>
      t.reg 14 == 0x8004 && packPsr t.cpsr == 0x0000003F && t.instrAddr == 0x8004) = true := by
  decide

/-- `BL low half alone, offset11 = 5`. -/
theorem test_tBlLow :
    stepGives (start 0x3F 0x8000 0xF805 [(14, 0x9000)] []) (fun t =>
      t.reg 14 == 0x8003 && packPsr t.cpsr == 0x0000003F && t.instrAddr == 0x900A) = true := by
  decide

/-- `B<cond 1110> (undefined)`. -/
theorem test_tUndefined :
    stepGives (start 0x3F 0x8000 0xDE00 [] []) (fun t =>
      t.reg 14 == 0x8002 && packPsr t.cpsr == 0x0000009B && t.instrAddr == 0x4) = true := by
  decide

/-- `LDRT r0, [r1], #4` (R294): the access carries the user attribute in Supervisor mode. -/
theorem test_ldrt :
    stepGives (start 0x13 0x8000 0xE4B10004 [(1, 0x1000)] [(0x1000, 0xDEADBEEF)]) (fun t =>
      t.reg 0 == 0xDEADBEEF && t.reg 1 == 0x1004 &&
        t.bus.any (fun a => a.addr == 0x1000 && a.user && !a.write)) = true := by
  decide

/-- `STRBT r0, [r1], #1` (R297): a byte with the user attribute, the base one on. -/
theorem test_strbt :
    stepGives (start 0x13 0x8000 0xE4E10001 [(0, 0x12345678), (1, 0x3003)] []) (fun t =>
      t.mem.byteAt 0x3003 == 0x78 && t.mem.byteAt 0x3002 == 0 && t.reg 1 == 0x3004 &&
        t.bus.any (fun a => a.addr == 0x3003 && a.user && a.write)) = true := by
  decide

/-- `SWP r0, r2, [r1]` (the example of R315). -/
theorem test_swp :
    stepGives (start 0x1F 0x8000 0xE1010092 [(1, 0x1000), (2, 0x55)] [(0x1000, 0xAA)]) (fun t =>
      t.reg 0 == 0xAA && t.mem.readSized .word 0x1000 == 0x55) = true := by
  decide

/-- `SWPB r0, r2, [r1]` (the example of R316). -/
theorem test_swpb :
    stepGives (start 0x1F 0x8000 0xE1410092 [(1, 0x1003), (2, 0x12345601)] [(0x1000, 0xFE000000)]) (fun t =>
      t.reg 0 == 0xFE && t.mem.readSized .word 0x1000 == 0x01000000) = true := by
  decide

/-- `LDMIA r0!, (r0, r1)` (R342): the loaded base wins over the writeback. -/
theorem test_ldm_base :
    stepGives (start 0x1F 0x8000 0xE8B00003 [(0, 0x1000)] [(0x1000, 1), (0x1004, 2)]) (fun t =>
      t.reg 0 == 1 && t.reg 1 == 2) = true := by
  decide

/-- `STMIA r0!, (r0, r1)` (R343): the stored base is the value before the transfer. -/
theorem test_stm_base :
    stepGives (start 0x1F 0x8000 0xE8A00003 [(0, 0x1000), (1, 7)] []) (fun t =>
      t.mem.readSized .word 0x1000 == 0x1000 && t.mem.readSized .word 0x1004 == 7 && t.reg 0 == 0x1008) = true := by
  decide

/-- The addresses of `STM<mode> r0!, (r1, r2, r3)` with r0 = 0x1010, and the base it leaves. -/
def blockTrace (mode : BlockMode) : List Word × Word :=
  match exec (.stm .al mode false true 0 0x000E) (State.reset.clearBus.setReg 0 0x1010) with
  | .next t => (t.bus.map (·.addr), t.reg 0)
  | _ => ([], 0)

/-- The worked example of the four variants (R345). -/
theorem test_block_variants :
    blockTrace .ia = ([0x1010, 0x1014, 0x1018], 0x101C) ∧ blockTrace .ib = ([0x1014, 0x1018, 0x101C], 0x101C) ∧
    blockTrace .da = ([0x1008, 0x100C, 0x1010], 0x1004) ∧ blockTrace .db = ([0x1004, 0x1008, 0x100C], 0x1004) := by
  decide

/-- The identity string (R1). -/
theorem test_identity : Config.identity = "kxkx5150/CPU-ARM7TDMI-cpp CORE (ARM7TDMI-class)" := rfl

/-- `MOVS pc, lr` in Supervisor mode (R212, R378): the mode and the flags of SPSR_svc, the user's r13 live again. -/
theorem test_mov_return :
    stepGives
      { start 0x93 0x8000 0xE1B0F00E [(13, 0x111), (14, 0x9004)] [] with
        spsrSvc := unpackPsr 0x60000010, bankUsr := #v[0, 0, 0, 0, 0, 0x222, 0x333] }
      (fun t => packPsr t.cpsr == 0x60000010 && t.instrAddr == 0x9004 && t.reg 13 == 0x222 && t.reg 14 == 0x333 &&
        t.shadow .svc 13 == 0x111) = true := by
  decide

/-- `LDMFD sp!, (r0-r3, pc)^` (R339). -/
theorem test_ldm_return :
    stepGives
      { start 0x92 0x8000 0xE8FD800F [(13, 0x1000)] [(0x1000, 1), (0x100C, 4), (0x1010, 0x9002)] with
        spsrIrq := unpackPsr 0x0000003F, bankUsr := #v[0, 0, 0, 0, 0, 0x222, 0x333] }
      (fun t => packPsr t.cpsr == 0x3F && t.instrAddr == 0x9002 && t.reg 0 == 1 && t.reg 3 == 4 && t.reg 13 == 0x222 &&
        t.shadow .irq 13 == 0x1014) = true := by
  decide

/-! ## The shifter, the interrupts, reset -/

/-- The examples of R206 and R70. -/
theorem test_shifter_examples :
    shiftImmediate .lsr 0x80000000 0 false = ⟨0, true⟩ ∧ shiftImmediate .ror 1 0 true = ⟨0x80000000, true⟩ ∧
    shiftRegister .lsl 1 32 false = ⟨0, true⟩ ∧ shiftRegister .lsl 0xFFFFFFFF 33 true = ⟨0, false⟩ ∧
    shiftRegister .ror 0x80000000 32 false = ⟨0x80000000, true⟩ ∧
    shiftRegister .asr 0x7FFFFFFF 200 true = ⟨0, false⟩ ∧
    shiftRegister .lsr 0x12345678 0 true = ⟨0x12345678, true⟩ := by decide

/-- The interrupt from Thumb state of R528 (b). -/
theorem test_irq_thumb :
    stepGives { start 0x3F 0x08000302 0 [] [] with pending := 1 } (fun t =>
      packPsr t.cpsr == 0x92 && packPsr t.spsrIrq == 0x3F && t.reg 14 == 0x08000306 && t.reg 15 == 0x20 &&
        t.pending == 1) = true := by decide

/-- The halted core of R542: a step without a request, and the step that wakes it. -/
theorem test_halted :
    stepGives { start 0x1F 0x08000100 0 [] [] with halted := true } (fun t =>
      t.halted && t.cycles == 1 && t.reg 15 == 0x08000108 && t.bus == []) = true ∧
    stepGives { start 0x1F 0x08000100 0 [] [] with halted := true, pending := 1 } (fun t =>
      !t.halted && t.reg 14 == 0x08000104 && packPsr t.spsrIrq == 0x1F && packPsr t.cpsr == 0x92) = true := by decide

/-- The reset state of R45. -/
theorem test_reset :
    State.reset.reg 15 = 8 ∧ packPsr State.reset.cpsr = 0xD3 ∧ State.reset.hostReset = State.reset := by decide

/-- A prefetched instruction is not changed by a store, one three ahead is (R82). -/
theorem test_prefetch :
    stepGives (start 0x1F 0x8000 0xE5810000 [(0, 0x55), (1, 0x8004)] []) (fun t =>
      t.slot0 == 0xE1A00000 && t.mem.readSized .word 0x8004 == 0x55) = true := by decide

/-! ## Witnesses for the hypotheses of the statements -/

/-- A reset state in another mode and instruction set. -/
def inMode (m : BitVec 5) (thumb : Bool) : State :=
  { State.reset with cpsr := { State.reset.cpsr with m := m, t := thumb } }

/-- `ADDS r0, r1, r2` placed where the step takes its next instruction. -/
def placed : State := State.reset.withFetchWord 32 0xE0910002

/-- The instruction of `placed`. -/
def placedInstr : Instr := .add .al true 0 1 (.shiftImm .lsl 0 2)

theorem witness_DecodeEncode :
    (Instr.ldrd .al .postIndexed false 14 2 (.imm 0xFF)).wellFormed = true ∧
    (Instr.undefined .eq 0x7F000F0#28).wellFormed = true ∧ (Instr.tBCond .le 0xFF).wellFormed = true := by decide

theorem witness_StepRunsTheDecodedInstruction :
    placed.interrupted = false ∧ placed.halted = false ∧
    (∃ t, exec placedInstr placed.clearBus.pipelineAdvance = .next t) ∧
    decodeFetched placed.cpsr.t placed.slot0 = placedInstr ∧ placed.pcAligned = true ∧
    placed.slot0 = placed.mem.readSized (fetchSize placed.cpsr.t) placed.instrAddr ∧
    (∃ rest, decodeBytes placed.cpsr.t placed.nextBytes = .ok (placedInstr, rest)) :=
  ⟨by decide, by decide, ⟨_, rfl⟩, by decide, by decide, by decide, ⟨[], rfl⟩⟩

theorem witness_PlacedWordRuns :
    decodeTableWord 32 0xE0910002 = some placedInstr ∧
    (∃ t, exec placedInstr placed.clearBus.pipelineAdvance = .next t) ∧
    decodeTableWord 16 0x1888 = some (.tAddReg 0 1 2) ∧
    (∃ t, exec (.tAddReg 0 1 2) (State.reset.withFetchWord 16 0x1888).clearBus.pipelineAdvance = .next t) :=
  ⟨by decide, ⟨_, rfl⟩, by decide, ⟨_, rfl⟩⟩

theorem reset_boundary : State.reset.boundary := by unfold State.boundary; decide

theorem witness_BoundaryInvariant : placed.boundary ∧ ∃ t, step placed = .next t := ⟨by unfold State.boundary; decide, ⟨_, rfl⟩⟩

theorem witness_ResetBoundary : placed.mem.wf = true := by decide

theorem witness_FailedConditionSkips :
    let s := State.reset.withFetchWord 32 0x00910002
    let i : Instr := .add .eq true 0 1 (.shiftImm .lsl 0 2)
    armCond i = some .eq ∧ condPass .eq s.cpsr = false ∧ s.cpsr.t = false ∧ s.currentInstr = i ∧ s.flush = false ∧
      s.interrupted = false ∧ s.halted = false := by decide

theorem witness_PipelineResults :
    let s := (inMode modeSys true).setReg 15 0x8003
    (2 : Word) = (if s.cpsr.t then 2 else 4) ∧ AccessSize.half = (if s.cpsr.t then .half else .word) ∧
      0x8002#32 = BitVec.ofNat 32 ((s.reg 15).toNat / (2 : Word).toNat * (2 : Word).toNat) := by decide

/-- The clauses of `InterruptSteps`: the fast interrupt, and the normal one with the fast one masked. -/
theorem witness_InterruptSteps :
    let cfg : Config := { Config.default with hasFiqLine := true }
    let s : State := { inMode modeSys false with cfg := cfg, fiqLine := true, pending := 1 }
    let open' : State := { s with cpsr := { s.cpsr with f := false } }
    let masked : State := { s with cpsr := { s.cpsr with i := false } }
    (open'.cfg.hasFiqLine = true ∧ open'.fiqLine = true ∧ open'.cpsr.f = false) ∧
    ((masked.cfg.hasFiqLine = false ∨ masked.fiqLine = false ∨ masked.cpsr.f = true) ∧ masked.pending ≠ 0 ∧
      masked.cpsr.i = false) := by decide

/-- The premises of the clauses of `EnvironmentAndHaltedSteps`: with and without the fast-interrupt input, a memory in
its form, a halted state without and with a request. -/
theorem witness_EnvironmentAndHaltedSteps :
    let s : State := { State.reset with halted := true }
    let woken : State := { s with pending := 0x80000000 }
    ({ Config.default with hasFiqLine := true } : Config).hasFiqLine = true ∧ s.cfg.hasFiqLine = false ∧
    placed.mem.wf = true ∧ s.halted = true ∧ s.pending = 0 ∧ s.fiqRequest = false ∧
    woken.halted = true ∧ woken.interrupted = false ∧ (woken.pending ≠ 0 ∨ woken.fiqRequest = true) := by decide

/-- The bounds of the amounts in `ShifterImmediate` and `ShifterRegister`, clause by clause. -/
theorem witness_Shifter :
    (0 < 32 ∧ 31 < 32) ∧ (0 < 256 ∧ (1 ≤ 255 ∧ 255 < 256)) ∧
    shiftImmediate .lsl 0x80000001 31 true = ⟨0x80000000, false⟩ ∧
    shiftRegister .lsl 0x80000001 255 true = ⟨0, false⟩ := by decide

/-- The premises of the clauses of `OperandForms` and both values of its parameters. -/
theorem witness_OperandForms :
    State.reset.cpsr.t = false ∧ (inMode modeSvc true).cpsr.t = true ∧ State.reset.cfg.pcRegShiftOffset = .plus12 ∧
    ({ Config.default with pcRegShiftOffset := .plus8 } : Config).pcRegShiftOffset ≠ .plus12 ∧
    State.reset.rop (pcOffsetBytes .plus12) 15 = 12 ∧ State.reset.rop (pcOffsetBytes .plus8) 15 = 8 := by decide

/-- The clauses of `RunConsumesBudget`: budgets 0 and 1 from reset, with one step in the second. -/
theorem witness_RunConsumesBudget :
    run 0 State.reset = .next ⟨State.reset, 0⟩ ∧ stepsTo 0 State.reset State.reset ∧
    ∃ t, run 1 State.reset = .next ⟨t, 1⟩ ∧ stepsTo 1 State.reset t := ⟨rfl, rfl, _, rfl, _, rfl, rfl⟩

/-- A halfword multiply reports `R[Rs]` to the cost of its step (R590). -/
theorem test_multiplierOperand_smulxy :
    (State.reset.setReg 3 0x12345).multiplierOperand (.smulxy .al .top .bottom 1 2 3) = 0x12345 := by decide

/-- The empty list of the first clause of `StoreMultiple`. -/
theorem witness_StoreMultiple : listedCount 0 = 16 ∧ blockStart .da 0x1000 (listedCount 0) = 0xFC4 := by decide

/-- The condition that passes and the destination, of the statements about data processing, multiplies, saturating
arithmetic, transfers, status registers and branches. -/
theorem witness_condition : condPass .al State.reset.cpsr = true ∧ condPass .ne State.reset.cpsr = true ∧
    (14 : Reg) ≠ 15 := by decide

theorem witness_CompareConditions : ∃ t, exec (.cmp .al 0 (.imm 0 0)) State.reset = .next t := ⟨_, rfl⟩

/-- Both clauses of `PcDestinationReturns`: a mode with an SPSR and one without. -/
theorem witness_PcDestinationReturns :
    (inMode modeFiq false).spsr = some zeroPsr ∧ (inMode modeUsr false).spsr = none ∧
    condPass .al (inMode modeUsr false).cpsr = true := by decide

theorem witness_DoubleTransfers : condPass .al State.reset.cpsr = true ∧ (14 : Reg).val % 2 = 0 ∧ (0 : Reg).val % 2 = 0 := by
  decide

theorem witness_LoadMultipleReturn :
    transferred 0x8000 15 = true ∧ transferred 0 15 = true ∧ (inMode modeIrq false).spsr = some zeroPsr := by decide

theorem witness_LoadMultipleUser :
    transferred 0x6000 15 = false ∧ transferred 0x6000 13 = true ∧
    homeOf (inMode modeIrq false).cpsr.m 13 ≠ homeOf modeUsr 13 := by decide

/-- Both clauses of `MsrCpsrResults`. -/
theorem witness_MsrCpsrResults :
    (true && decide ((inMode modeUsr false).cpsr.m ≠ modeUsr)) = false ∧
    (true && decide ((inMode modeSys false).cpsr.m ≠ modeUsr)) = true := by decide

/-- Both clauses of `MsrSpsrResults`. -/
theorem witness_MsrSpsrResults :
    (inMode modeSys false).spsr = none ∧ (inMode modeUnd false).spsr = some zeroPsr := by decide

/-- The clauses of `SwitchModeResult`: two modes of one bank, two banks, and a value without an SPSR. -/
theorem witness_SwitchModeResult :
    bankOf modeUsr = bankOf modeSys ∧ bankOf modeFiq ≠ bankOf modeIrq ∧ (inMode 0b10001 false).cpsr.m = 0b10001 ∧
    (0#5) ∉ [0b10001#5, 0b10010#5, 0b10011#5, 0b10111#5, 0b11011#5] ∧
    modeSys ∉ [0b10001#5, 0b10010#5, 0b10011#5, 0b10111#5, 0b11011#5] := by decide

/-- The clauses of `SwitchModeKeepsEveryView` about one register: live, and in a shadow cell. -/
theorem witness_SwitchModeKeepsEveryView :
    homeOf modeUsr 12 = homeOf modeIrq 12 ∧ homeOf modeUsr 13 = some .usr ∧ homeOf modeIrq 13 ≠ some .usr ∧
    homeOf modeFiq 8 = some .fiq ∧ homeOf modeSvc 8 ≠ some .fiq ∧ (14 : Reg) ≠ 15 := by decide

/-- The clauses of `SupervisorCallsAndUndefined` and `BreakpointsAndVectors`. -/
theorem witness_exceptions :
    (State.reset.cpsr.t = false ∧ condPass .al State.reset.cpsr = true) ∧ (inMode modeSys true).cpsr.t = true := by
  decide

theorem witness_ThumbHiAndPcRelative : (inMode modeUsr true).cpsr.t = true := by decide

theorem witness_QSticky :
    let s : State := { State.reset with cpsr := { State.reset.cpsr with q := true } }
    s.cpsr.q = true ∧ ∃ t, exec (.qadd .al 0 1 2) s = .next t := ⟨rfl, ⟨_, rfl⟩⟩

theorem witness_UserModeCannotChangeControl :
    let i : Instr := .msrCpsr .al ⟨true, false, false, true⟩ (.imm 0 0x13)
    (inMode modeUsr false).cpsr.m = modeUsr ∧ raisedBy i = none ∧ ∃ t, exec i (inMode modeUsr false) = .next t :=
  ⟨rfl, rfl, ⟨_, rfl⟩⟩

theorem witness_TChangesOnlyWithDiscard :
    ∃ t, exec (.bx .al 0) (State.reset.setReg 0 1) = .next t ∧ t.cpsr.t ≠ (State.reset.setReg 0 1).cpsr.t :=
  ⟨_, rfl, by decide⟩

/-- Of the whole-machine rules about SPSRs, memory and banks: an instruction that stores nothing, and the last clause
of the rule about SPSRs. -/
theorem witness_whole_machine :
    (∃ t, exec (.mov .al false 0 (.imm 0 1)) State.reset = .next t) ∧
    storesMemory (.mov .al false 0 (.imm 0 1)) = false ∧ Bank.fiq ≠ bankOf State.reset.cpsr.m ∧
    copiesSpsr (.mov .al true 15 (.imm 0 1)) = true := ⟨⟨_, rfl⟩, by decide⟩

theorem witness_memory :
    Memory.wf ([] : Memory) = true ∧ placed.mem.wf = true ∧ (∀ a : Word, placed.mem.byteAt a = placed.mem.byteAt a) :=
  ⟨rfl, by decide, fun _ => rfl⟩

end Sys2Proof.Machine.Tests
end

section
/-! The pipeline and the condition test (40_step_pipeline_condition.md): what the end of a step costs, which step runs
an instruction, what a failed condition leaves, and the two pipeline operations as records. -/

namespace Sys2Proof.Machine

/-! ## The cost of a step (R590) -/

/-- The cycle class of every instruction counts at least one cycle (R591). -/
theorem instrCycles_pos (i : Instr) (v : Word) :
    1 ≤ (instrCycles i v).s + (instrCycles i v).n + (instrCycles i v).i := by
  unfold instrCycles
  split <;> dsimp only
  -- the sixteen data-processing rows depend on the form of operand 2
  iterate 16
    · split <;> exact le_add_right le_rfl
  all_goals omega

theorem cycleCost_pos (rule : CycleRule) (r : StepReport) : 1 ≤ cycleCost rule r := by
  obtain ⟨kind, reloaded, bus⟩ := r
  cases rule with
  | unit => exact le_rfl
  | unspecified => exact Nat.le_add_right 1 _
  | arm7tdmi =>
    cases kind with
    | halted => cases reloaded <;> simp [cycleCost, stepCycles]
    | interrupt => cases reloaded <;> simp [cycleCost, stepCycles]
    | executed i passed v =>
      have := instrCycles_pos i v
      cases reloaded <;> cases passed <;> simp [cycleCost, stepCycles] <;> omega

/-- The charge of a step adds at least one cycle and changes nothing else. -/
theorem charge_eq_addCycles (t : State) (kind : StepKind) (reloaded : Bool) :
    ∃ n, 1 ≤ n ∧ t.charge kind reloaded = { t with cycles := t.cycles + n } :=
  ⟨_, cycleCost_pos _ _, rfl⟩

/-! ## The step that runs an instruction (R170) -/

/-- A state that is not halted has nothing to wake from. -/
theorem wake_of_not_halted {s : State} (hh : s.halted = false) : s.wake = s := by
  cases s
  simp_all [State.wake]

/-- A poll that takes no interrupt only wakes (R530, R541). -/
theorem interruptPoll_of_not_interrupted {s : State} (hi : s.interrupted = false) :
    s.interruptPoll = s.wake := by
  obtain ⟨hf, hq⟩ := Bool.or_eq_false_iff.mp hi
  simp [State.interruptPoll, hf, hq]

theorem step_eq_executeStep {s : State} (hi : s.interrupted = false) (hh : s.halted = false) :
    step s = executeStep s.clearBus := by
  have hi' : s.clearBus.interrupted = false := hi
  have hh' : s.clearBus.halted = false := hh
  simp [step, interruptPoll_of_not_interrupted hi', wake_of_not_halted hh', hi', hh]

/-- The step of a running state executes `slot[0]` after the pipeline's advance, then moves on or reloads, then adds
its cycles. -/
theorem steppedTo_of_exec {s t : State} (hi : s.interrupted = false) (hh : s.halted = false)
    (ht : exec s.currentInstr s.clearBus.pipelineAdvance = .next t) :
    steppedTo s (if t.flush then t.reload else t.advancePc s.width) := by
  obtain ⟨n, hn, hcharge⟩ := charge_eq_addCycles (if t.flush then t.reload else t.advancePc s.width)
    s.clearBus.executedKind t.flush
  have hexec : executeStep s.clearBus = .next (t.completeInstr s.clearBus) := by
    have ht' : exec s.clearBus.currentInstr s.clearBus.pipelineAdvance = .next t := ht
    simp only [executeStep, ht']
  exact ⟨n, hn, (step_eq_executeStep hi hh).trans (hexec.trans (congrArg _ hcharge))⟩

/-! ## The failed condition (R181) -/

theorem whenCond_of_not_pass {s : State} {c : Cond} (h : condPass c s.cpsr = false) (effect : State → State) :
    s.whenCond c effect = s := by
  simp [State.whenCond, h]

/-- Every ARM instruction does the whole of its effect under its condition: the one idea of R181, read off each arm of
`exec`. -/
theorem exec_eq_whenCond {i : Instr} {c : Cond} (h : armCond i = some c) :
    ∃ effect : State → State, ∀ s, exec i s = .next (s.whenCond c effect) := by
  cases i <;> cases h <;> exact ⟨_, fun _ => rfl⟩

theorem exec_of_not_pass {i : Instr} {c : Cond} {s : State} (hc : armCond i = some c)
    (h : condPass c s.cpsr = false) : exec i s = .next s := by
  obtain ⟨effect, heffect⟩ := exec_eq_whenCond hc
  rw [heffect, whenCond_of_not_pass h]

/-- Settles O10: the effect of an ARM instruction stands whole under its condition, and a step whose instruction
leaves the advanced state alone discards nothing, so it moves r15 by the width of ARM state. -/
theorem failedConditionSkips : Obligations.FailedConditionSkips := by
  intro s i c hc hfail
  refine ⟨exec_of_not_pass hc hfail, ?_⟩
  intro harm hcur hflush hi hh
  have hexec : exec s.currentInstr s.clearBus.pipelineAdvance = .next s.clearBus.pipelineAdvance := by
    rw [hcur]
    exact exec_of_not_pass hc (by simpa using hfail)
  have hstep := steppedTo_of_exec hi hh hexec
  simpa [hflush, State.width, widthOf, harm] using hstep

/-! ## The pipeline operations (R171, R173) -/

/-- A read on the Bus adds its record and changes nothing else (R61). -/
theorem noteRead_eq (s : State) (size : AccessSize) (a : Word) (sequential forced : Bool) :
    s.noteRead size a sequential forced =
      { s with bus := s.bus ++ [s.readAccess size a sequential forced] } := rfl

/-- A word with the bits of `v` from bit `k` up, and none below, is `v` rounded down to a multiple of `2 ^ k`. -/
theorem toNat_of_low_bits_cleared {u v : Word} {k : Nat}
    (h : ∀ i, u.getLsbD i = (v.getLsbD i && decide (k ≤ i))) : u.toNat = v.toNat / 2 ^ k * 2 ^ k := by
  have hshift : u = (v >>> k) <<< k := by
    apply BitVec.eq_of_getLsbD_eq
    intro i hi
    rw [h, BitVec.getLsbD_shiftLeft, BitVec.getLsbD_ushiftRight]
    by_cases hk : k ≤ i
    · simp only [hk, hi, Nat.not_lt.mpr hk, Nat.add_sub_cancel' hk, decide_true, decide_false, Bool.not_false,
        Bool.and_true, Bool.true_and]
    · simp only [hk, Nat.not_le.mp hk, decide_true, decide_false, Bool.not_true, Bool.and_false, Bool.false_and]
  have hle : v.toNat / 2 ^ k * 2 ^ k ≤ v.toNat := Nat.div_mul_le_self _ _
  rw [hshift, BitVec.toNat_shiftLeft, BitVec.toNat_ushiftRight, Nat.shiftLeft_eq, Nat.shiftRight_eq_div_pow,
    Nat.mod_eq_of_lt (hle.trans_lt v.isLt)]

/-- `Align(v, w)` is the greatest multiple of the width that is not above `v` (R6, R74). -/
theorem alignWidth_eq_div_mul (thumb : Bool) (v : Word) :
    alignWidth thumb v = BitVec.ofNat 32 (v.toNat / (widthOf thumb).toNat * (widthOf thumb).toNat) := by
  apply BitVec.eq_of_toNat_eq
  have hlt (n : Nat) : v.toNat / n * n < 2 ^ 32 := (Nat.div_mul_le_self _ _).trans_lt v.isLt
  rw [BitVec.toNat_ofNat, Nat.mod_eq_of_lt (hlt _)]
  cases thumb
  · exact toNat_of_low_bits_cleared (k := 2) (align4_getLsbD v)
  · exact toNat_of_low_bits_cleared (k := 1) (align2_getLsbD v)

theorem pipelineAdvance_eq (s : State) :
    s.pipelineAdvance =
      { s with
        slot0 := s.slot1
        slot1 := s.mem.readSized (fetchSize s.cpsr.t) (s.reg 15)
        bus := s.bus ++ [s.readAccess (fetchSize s.cpsr.t) (s.reg 15) true false] } := rfl

/-- The second fetch of `Reload` reads the same memory, under the same user attribute, as the first one found. -/
theorem reload_eq (s : State) :
    s.reload =
      { s with
        regs := s.regs.set 15 (alignWidth s.cpsr.t (s.reg 15) + 2 * widthOf s.cpsr.t)
        slot0 := s.mem.readSized (fetchSize s.cpsr.t) (alignWidth s.cpsr.t (s.reg 15))
        slot1 := s.mem.readSized (fetchSize s.cpsr.t) (alignWidth s.cpsr.t (s.reg 15) + widthOf s.cpsr.t)
        flush := false
        bus := s.bus ++
          [s.readAccess (fetchSize s.cpsr.t) (alignWidth s.cpsr.t (s.reg 15)) false false,
            s.readAccess (fetchSize s.cpsr.t) (alignWidth s.cpsr.t (s.reg 15) + widthOf s.cpsr.t) true false] } := by
  simp only [State.reload, noteRead_eq, List.append_assoc, List.singleton_append]
  rfl

/-- Settles O11: the statement's width, size and target are those of the current T, and each operation is its record
update. -/
theorem pipelineResults : Obligations.PipelineResults := by
  intro s a w size hw hsize ha
  obtain rfl : w = widthOf s.cpsr.t := hw
  obtain rfl : size = fetchSize s.cpsr.t := hsize
  obtain rfl : a = alignWidth s.cpsr.t (s.reg 15) := ha.trans (alignWidth_eq_div_mul _ _).symm
  exact ⟨pipelineAdvance_eq s, reload_eq s⟩

end Sys2Proof.Machine
end

section
/-! The shifter by an immediate (R201, R203): values as quotients, products and rotations, the carry as a bit of the
operand. -/

namespace Sys2Proof.Machine

/-- A bit of a word is the parity of the quotient by its weight. -/
theorem getLsbD_eq_quotient_odd (v : Word) (k : Nat) : v.getLsbD k = decide (v.toNat / 2 ^ k % 2 = 1) := by
  rw [← BitVec.testBit_toNat, Nat.testBit_eq_decide_div_mod_eq]

theorem msb_eq_quotient_odd (v : Word) : v.msb = decide (v.toNat / 2 ^ 31 % 2 = 1) :=
  (BitVec.msb_eq_getLsbD_last v).trans (getLsbD_eq_quotient_odd v 31)

/-- The rotation of R6 is the rotation of bit vectors. -/
theorem ror32_eq_rotateRight (v : Word) {n : Nat} (hn : n < 32) : ror32 v n = v.rotateRight n := by
  rw [ror32, BitVec.rotateRight_def, Nat.mod_eq_of_lt hn]
  split
  · next h => simp [h]
  · rfl

/-- An arithmetic shift by 31 already leaves only copies of the sign, as one by 32 does. -/
theorem toInt_sshiftRight_31 (v : Word) : (v.sshiftRight 31).toInt = v.toInt / 2 ^ 32 := by
  have hlo := v.le_toInt
  have hhi := v.toInt_lt
  rw [BitVec.toInt_sshiftRight, Int.shiftRight_eq_div_pow]
  omega

/-- Rotate-right-with-extend (R203): the carry enters at the top of the halved word, where no bit stands. -/
theorem toNat_rrx (v : Word) (c : Bool) :
    ((v >>> 1) ||| (zext (BitVec.ofBool c) <<< 31)).toNat = v.toNat / 2 + c.toNat * 2 ^ 31 := by
  have hhalf : (v >>> 1).toNat = v.toNat / 2 := BitVec.toNat_ushiftRight v 1
  have htop : (zext (BitVec.ofBool c) <<< 31 : Word).toNat = 2 ^ 31 * c.toNat := by cases c <;> rfl
  have hdisjoint := Nat.two_pow_add_eq_or_of_lt (i := 31) (b := v.toNat / 2) (by omega) c.toNat
  rw [BitVec.toNat_or, hhalf, htop, Nat.or_comm, ← hdisjoint]
  omega

theorem shiftImmediate_lsl (v : Word) (n : Nat) (c : Bool) :
    (shiftImmediate .lsl v n c).value.toNat = v.toNat * 2 ^ n % 2 ^ 32 ∧
      (shiftImmediate .lsl v n c).carry = if n = 0 then c else decide (v.toNat / 2 ^ (32 - n) % 2 = 1) := by
  by_cases h : n = 0
  · simp [shiftImmediate, h, Nat.mod_eq_of_lt v.isLt]
  · simp [shiftImmediate, h, Nat.shiftLeft_eq, getLsbD_eq_quotient_odd]

theorem shiftImmediate_lsr (v : Word) (n : Nat) (c : Bool) :
    (shiftImmediate .lsr v n c).value.toNat = v.toNat / 2 ^ (if n = 0 then 32 else n) ∧
      (shiftImmediate .lsr v n c).carry =
        decide (v.toNat / 2 ^ ((if n = 0 then 32 else n) - 1) % 2 = 1) := by
  by_cases h : n = 0
  · simp [shiftImmediate, h, Nat.div_eq_of_lt v.isLt, msb_eq_quotient_odd]
  · simp [shiftImmediate, h, Nat.shiftRight_eq_div_pow, getLsbD_eq_quotient_odd]

theorem shiftImmediate_asr (v : Word) (n : Nat) (c : Bool) :
    (shiftImmediate .asr v n c).value.toInt = v.toInt / 2 ^ (if n = 0 then 32 else n) ∧
      (shiftImmediate .asr v n c).carry =
        decide (v.toNat / 2 ^ ((if n = 0 then 32 else n) - 1) % 2 = 1) := by
  by_cases h : n = 0
  · subst h
    exact ⟨toInt_sshiftRight_31 v, msb_eq_quotient_odd v⟩
  · simp [shiftImmediate, h, Int.shiftRight_eq_div_pow, getLsbD_eq_quotient_odd]

theorem shiftImmediate_ror_zero (v : Word) (c : Bool) :
    (shiftImmediate .ror v 0 c).value.toNat = v.toNat / 2 + c.toNat * 2 ^ 31 ∧
      (shiftImmediate .ror v 0 c).carry = decide (v.toNat % 2 = 1) :=
  ⟨toNat_rrx v c, (getLsbD_eq_quotient_odd v 0).trans (by simp)⟩

theorem shiftImmediate_ror_of_ne_zero (v : Word) {n : Nat} (c : Bool) (hn : n < 32) (h : n ≠ 0) :
    (shiftImmediate .ror v n c).value = v.rotateRight n ∧
      (shiftImmediate .ror v n c).carry = decide (v.toNat / 2 ^ (n - 1) % 2 = 1) := by
  simp [shiftImmediate, h, ror32_eq_rotateRight v hn, getLsbD_eq_quotient_odd]

/-- Settles O15, one lemma per shift type, and two for ROR, whose amount 0 is another operation. -/
theorem shifterImmediate : Obligations.ShifterImmediate := by
  intro v n c hn
  refine ⟨shiftImmediate_lsl v n c, shiftImmediate_lsr v n c, shiftImmediate_asr v n c, ?_⟩
  intro r
  split
  · next h =>
    subst h
    exact shiftImmediate_ror_zero v c
  · next h => exact shiftImmediate_ror_of_ne_zero v c hn h

end Sys2Proof.Machine
end

section
/-! The adder (R208): its answer as one record in exact integers, for an addition and for a subtraction. -/

namespace Sys2Proof.Machine

theorem addWithCarry_result (x y : Word) (c : Bool) :
    (addWithCarry x y c).result = x + y + BitVec.ofNat 32 c.toNat := by
  simp [addWithCarry, BitVec.ofNat_add]

/-- The rule's overflow is a statement about three signs; with the sum written out from the unsigned values it says
that the signed sum leaves the 32-bit range. -/
theorem addWithCarry_overflow (x y : Word) (c : Bool) :
    (addWithCarry x y c).overflow = !fits32 (x.toInt + y.toInt + c.toNat) := by
  have hc : c.toNat ≤ 1 := c.toNat_le
  have hx := x.isLt
  have hy := y.isLt
  have hsigns : (addWithCarry x y c).overflow =
      (!(x.msb ^^ y.msb) && (x.msb ^^ (addWithCarry x y c).result.msb)) := by
    simp [addWithCarry]
  have hresult : (addWithCarry x y c).result.toNat = (x.toNat + y.toNat + c.toNat) % 2 ^ 32 :=
    BitVec.toNat_ofNat ..
  rw [hsigns, fits32, Bool.eq_iff_iff]
  simp only [BitVec.msb_eq_decide, BitVec.toInt_eq_toNat_cond, hresult, Bool.and_eq_true, Bool.not_eq_true',
    bne_eq_false_iff_eq, decide_eq_decide, bne_iff_ne, ne_eq, Bool.not_and, Bool.or_eq_true, decide_eq_false_iff_not]
  omega

theorem addWithCarry_eq (x y : Word) (c : Bool) :
    addWithCarry x y c =
      ⟨x + y + BitVec.ofNat 32 c.toNat, decide (2 ^ 32 ≤ x.toNat + y.toNat + c.toNat),
        !fits32 (x.toInt + y.toInt + c.toNat)⟩ := by
  rw [← addWithCarry_result, ← addWithCarry_overflow]
  rfl

/-- The complement of a word is its negative less 1, as an integer: no wrap-around. -/
theorem toInt_complement (y : Word) : (~~~y).toInt = -y.toInt - 1 := by
  have hy := y.isLt
  simp only [BitVec.toInt_eq_toNat_cond, BitVec.toNat_not]
  omega

/-- With the second operand complemented the adder subtracts, one less where no carry comes in; its carry means that
there is no borrow. -/
theorem addWithCarry_complement_eq (x y : Word) (c : Bool) :
    addWithCarry x (~~~y) c =
      ⟨x - y - BitVec.ofNat 32 (!c).toNat, decide (y.toNat + (!c).toNat ≤ x.toNat),
        !fits32 (x.toInt - y.toInt - (!c).toNat)⟩ := by
  have hk : c.toNat + (!c).toNat = 1 := by cases c <;> rfl
  have hy := y.isLt
  have hresult : x + ~~~y + BitVec.ofNat 32 c.toNat = x - y - BitVec.ofNat 32 (!c).toNat := by bv_omega
  have hcarry : 2 ^ 32 ≤ x.toNat + (~~~y).toNat + c.toNat ↔ y.toNat + (!c).toNat ≤ x.toNat := by
    rw [BitVec.toNat_not]
    omega
  have hexact : x.toInt + (~~~y).toInt + c.toNat = x.toInt - y.toInt - (!c).toNat := by
    rw [toInt_complement]
    omega
  rw [addWithCarry_eq, hresult, hexact, decide_eq_decide.mpr hcarry]

/-- ADD and CMN: no carry comes in (R217, R224). -/
theorem addWithCarry_false_eq (x y : Word) :
    addWithCarry x y false =
      ⟨x + y, decide (2 ^ 32 ≤ x.toNat + y.toNat), !fits32 (x.toInt + y.toInt)⟩ := by
  simp [addWithCarry_eq]

/-- SUB, RSB and CMP: no borrow comes in (R215, R216, R223). -/
theorem addWithCarry_complement_true_eq (x y : Word) :
    addWithCarry x (~~~y) true =
      ⟨x - y, decide (y.toNat ≤ x.toNat), !fits32 (x.toInt - y.toInt)⟩ := by
  simp [addWithCarry_complement_eq]

/-- Settles O17: the result, the carry and the rule's overflow are the definition's own; the rest is read off the two
records. -/
theorem adderExact : Obligations.AdderExact := fun x y c =>
  ⟨BitVec.toNat_ofNat .., rfl, rfl, addWithCarry_overflow x y c,
    congrArg Sum.result (addWithCarry_complement_eq x y c),
    congrArg Sum.carry (addWithCarry_complement_true_eq x y),
    congrArg Sum.overflow (addWithCarry_complement_true_eq x y)⟩

end Sys2Proof.Machine
end

section
/-! Data processing (R207 to R229): what each of its shared operations answers, for a destination other than r15, for
r15 with S = 0, and for the tests; then the statements, one shared operation per instruction. -/

namespace Sys2Proof.Machine

/-- An ARM instruction whose condition passes answers the whole of its effect (R181). -/
theorem exec_eq_next_of_pass {s t : State} {c : Cond} {i : Instr} {effect : State → State}
    (hc : condPass c s.cpsr = true) (hi : exec i s = .next (s.whenCond c effect)) (ht : effect s = t) :
    exec i s = .next t := by
  rw [hi, State.whenCond, if_pos hc, ht]

section
variable {s : State} {sb : Bool} {rd rn : Reg} {op2 : Operand2}

/-! ## A destination other than r15 -/

/-- The write of a result (R207), under the flags of its N and Z and any C and V. -/
theorem dpWrite_of_ne_pc (hrd : rd ≠ 15) (r : Word) (k v : Bool) :
    s.dpWrite sb rd r { s.cpsr with n := r.msb, z := decide (r = 0), c := k, v := v } =
      s.arithAnswer sb rd r k v := by
  cases sb <;> simp [State.dpWrite, hrd, State.arithAnswer, State.setReg, State.setCpsr]

theorem dpArith_of_ne_pc {op : Word → Word → Bool → Sum} {r : Word} {k v : Bool} (hrd : rd ≠ 15)
    (hop : op (s.operand1 rn op2) (s.operand2 op2).value s.cpsr.c = ⟨r, k, v⟩) :
    s.dpArith sb rd rn op2 op = s.arithAnswer sb rd r k v := by
  rw [State.dpArith, hop]
  exact dpWrite_of_ne_pc hrd r k v

theorem dpLogic_of_ne_pc (hrd : rd ≠ 15) (op : Word → Word → Word) :
    s.dpLogic sb rd rn op2 op =
      s.logicAnswer sb rd (op (s.operand1 rn op2) (s.operand2 op2).value) (s.operand2 op2).carry :=
  dpWrite_of_ne_pc hrd _ _ s.cpsr.v

theorem dpMove_of_ne_pc (hrd : rd ≠ 15) (op : Word → Word) :
    s.dpMove sb rd op2 op = s.logicAnswer sb rd (op (s.operand2 op2).value) (s.operand2 op2).carry :=
  dpWrite_of_ne_pc hrd _ _ s.cpsr.v

/-! ## Destination r15 with S = 0 (R211) -/

theorem dpArith_pc {op : Word → Word → Bool → Sum} {r : Word}
    (hop : (op (s.operand1 rn op2) (s.operand2 op2).value s.cpsr.c).result = r) :
    s.dpArith false 15 rn op2 op = s.branchAnswer r :=
  congrArg s.branchAnswer hop

theorem dpLogic_pc (op : Word → Word → Word) :
    s.dpLogic false 15 rn op2 op = s.branchAnswer (op (s.operand1 rn op2) (s.operand2 op2).value) := rfl

theorem dpMove_pc (op : Word → Word) :
    s.dpMove false 15 op2 op = s.branchAnswer (op (s.operand2 op2).value) := rfl

/-! ## The tests (R230) -/

theorem dpArithTest_eq {op : Word → Word → Bool → Sum} {r : Word} {k v : Bool}
    (hop : op (s.operand1 rn op2) (s.operand2 op2).value s.cpsr.c = ⟨r, k, v⟩) :
    s.dpArithTest rn op2 op = s.flagAnswer r k v := by
  rw [State.dpArithTest, hop]
  rfl

theorem dpLogicTest_eq (op : Word → Word → Word) :
    s.dpLogicTest rn op2 op =
      s.flagAnswer (op (s.operand1 rn op2) (s.operand2 op2).value) (s.operand2 op2).carry s.cpsr.v := rfl

end

/-- After a reload the next instruction is the one at the aligned fetch address (R173, R527). -/
theorem instrAddr_reload (s : State) : s.reload.instrAddr = alignWidth s.cpsr.t (s.reg 15) := by
  simp [State.instrAddr, State.width, State.reg]

theorem reg_branchAnswer_pc (s : State) (target : Word) : (s.branchAnswer target).reg 15 = target :=
  (reg_setPc s target 15).trans (if_pos rfl)

/-! ## The statements -/

/-- Settles O19: each of the six is the arithmetic operation over one form of the adder. -/
theorem arithmeticResults : Obligations.ArithmeticResults := by
  intro s c sb rd rn op2 hc hrd a b k nk
  refine ⟨?sub, ?rsb, ?add, ?adc, ?sbc, ?rsc⟩ <;> refine exec_eq_next_of_pass hc rfl (dpArith_of_ne_pc hrd ?_)
  case sub => exact addWithCarry_complement_true_eq a b
  case rsb => exact addWithCarry_complement_true_eq b a
  case add => exact addWithCarry_false_eq a b
  case adc => exact addWithCarry_eq a b s.cpsr.c
  case sbc => exact addWithCarry_complement_eq a b s.cpsr.c
  case rsc => exact addWithCarry_complement_eq b a s.cpsr.c

/-- Settles O20: MOV and MVN have no first operand, the other four are the logic operation. -/
theorem logicResults : Obligations.LogicResults := by
  intro s c sb rd rn op2 hc hrd a b k
  refine ⟨?and, ?eor, ?orr, ?mov, ?bic, ?mvn⟩ <;> refine exec_eq_next_of_pass hc rfl ?_
  case mov | mvn => exact dpMove_of_ne_pc hrd _
  all_goals exact dpLogic_of_ne_pc hrd _

/-- Settles O21: the tests over the same logic and the same forms of the adder. -/
theorem comparisonResults : Obligations.ComparisonResults := by
  intro s c rn op2 hc a b k
  refine ⟨?tst, ?teq, ?cmp, ?cmn⟩ <;> refine exec_eq_next_of_pass hc rfl ?_
  case tst | teq => exact dpLogicTest_eq _
  case cmp => exact dpArithTest_eq (addWithCarry_complement_true_eq a b)
  case cmn => exact dpArithTest_eq (addWithCarry_false_eq a b)

/-- Settles O23: with destination r15 each shared operation is a branch to its result, and the reload after a branch
in ARM state goes on at the target rounded down to a multiple of 4. -/
theorem pcDestinationBranches : Obligations.PcDestinationBranches := by
  constructor
  · intro s c rn op2 hc a b k nk
    refine ⟨?and, ?eor, ?sub, ?rsb, ?add, ?adc, ?sbc, ?rsc, ?orr, ?mov, ?bic, ?mvn⟩ <;>
      refine exec_eq_next_of_pass hc rfl ?_
    case sub => exact dpArith_pc (congrArg Sum.result (addWithCarry_complement_true_eq a b))
    case rsb => exact dpArith_pc (congrArg Sum.result (addWithCarry_complement_true_eq b a))
    case add => exact dpArith_pc (congrArg Sum.result (addWithCarry_false_eq a b))
    case adc => exact dpArith_pc (addWithCarry_result a b s.cpsr.c)
    case sbc => exact dpArith_pc (congrArg Sum.result (addWithCarry_complement_eq a b s.cpsr.c))
    case rsc => exact dpArith_pc (congrArg Sum.result (addWithCarry_complement_eq b a s.cpsr.c))
    case mov | mvn => exact dpMove_pc _
    all_goals exact dpLogic_pc _
  · intro s target ht
    have harm : (s.branchAnswer target).cpsr.t = false := ht
    refine ⟨?_, reload_cpsr _⟩
    rw [instrAddr_reload, reg_branchAnswer_pc, harm]
    exact alignWidth_eq_div_mul false target

end Sys2Proof.Machine
end

section
/-! Saturation (R360): the clamped word and its flag in exact integers. -/

namespace Sys2Proof.Machine

theorem clamp32_of_gt {v : Int} (h : 2 ^ 31 - 1 < v) : clamp32 v = 2 ^ 31 - 1 := by
  unfold clamp32
  omega

theorem clamp32_of_lt {v : Int} (h : v < -2 ^ 31) : clamp32 v = -2 ^ 31 := by
  unfold clamp32
  omega

theorem clamp32_of_mem {v : Int} (hlo : -2 ^ 31 ≤ v) (hhi : v ≤ 2 ^ 31 - 1) : clamp32 v = v := by
  unfold clamp32
  omega

theorem toInt_ofInt_clamp32 (v : Int) : (BitVec.ofInt 32 (clamp32 v)).toInt = clamp32 v := by
  refine BitVec.toInt_ofInt_eq_self (by decide) ?_ ?_ <;> unfold clamp32 <;> omega

theorem not_fits32_iff (v : Int) : (!fits32 v) = true ↔ (2 ^ 31 - 1 < v ∨ v < -2 ^ 31) := by
  simp only [fits32, Bool.not_eq_true', Bool.and_eq_false_iff, decide_eq_false_iff_not]
  omega

/-- Both components at once: the word of the clamped integer, and whether the integer did not fit. -/
theorem signedSat32_eq (v : Int) : signedSat32 v = (BitVec.ofInt 32 (clamp32 v), !fits32 v) := by
  unfold signedSat32
  split
  · next habove =>
    rw [clamp32_of_gt habove, (not_fits32_iff v).mpr (.inl habove)]
    rfl
  · next habove =>
    split
    · next hbelow =>
      rw [clamp32_of_lt hbelow, (not_fits32_iff v).mpr (.inr hbelow)]
      rfl
    · next hbelow =>
      have hfits : (!fits32 v) = false :=
        Bool.eq_false_iff.mpr fun h => ((not_fits32_iff v).mp h).elim habove hbelow
      rw [clamp32_of_mem (Int.not_lt.mp hbelow) (Int.not_lt.mp habove), hfits]

/-- Settles O28: the clamped integer is a signed word's value, and each range has its own value of the clamp. -/
theorem signedSaturation : Obligations.SignedSaturation := by
  intro v
  rw [signedSat32_eq]
  refine ⟨toInt_ofInt_clamp32 v, not_fits32_iff v, ?above, ?below, ?inside⟩
  case above => exact fun h => congrArg (BitVec.ofInt 32) (clamp32_of_gt h)
  case below => exact fun h => congrArg (BitVec.ofInt 32) (clamp32_of_lt h)
  case inside => exact fun hlo hhi => congrArg (BitVec.ofInt 32) (clamp32_of_mem hlo hhi)

end Sys2Proof.Machine
end

section
/-! SWI and the undefined instructions (R400, R410, R496, R516): the return address is the next instruction's, one
width behind the fetch address r15. -/

namespace Sys2Proof.Machine

/-- The next instruction's address A + w (R527), by the fetch address `R[15] = A + 2w` (R175). -/
theorem instrAddr_add_width (s : State) : s.instrAddr + s.width = s.reg 15 - s.width := by
  unfold State.instrAddr
  bv_omega

theorem raiseNext_eq (s : State) (e : Exception) : s.raiseNext e = s.enter e (s.reg 15 - s.width) :=
  congrArg (s.enter e) (instrAddr_add_width s)

theorem raiseNext_of_arm {s : State} (h : s.cpsr.t = false) (e : Exception) :
    s.raiseNext e = s.enter e (s.reg 15 - 4) := by
  rw [raiseNext_eq, State.width, h]
  rfl

theorem raiseNext_of_thumb {s : State} (h : s.cpsr.t = true) (e : Exception) :
    s.raiseNext e = s.enter e (s.reg 15 - 2) := by
  rw [raiseNext_eq, State.width, h]
  rfl

/-- Settles O47: the effect of each of the four is `raiseNext`, under the condition in the ARM set, and the width of
the current state fixes the return address. -/
theorem supervisorCallsAndUndefined : Obligations.SupervisorCallsAndUndefined := by
  intro s c imm24 bits imm8 half
  constructor
  · intro harm hc
    exact ⟨exec_eq_next_of_pass hc rfl (raiseNext_of_arm harm _),
      exec_eq_next_of_pass hc rfl (raiseNext_of_arm harm _)⟩
  · intro hthumb
    exact ⟨congrArg Host.Outcome.next (raiseNext_of_thumb hthumb .supervisorCall),
      congrArg Host.Outcome.next (raiseNext_of_thumb hthumb .undefinedInstruction)⟩

end Sys2Proof.Machine
end

section
/-! Exception entry (R525): what it leaves in CPSR, in the saved status words and in the registers; the fields that
neither the mode switch nor the entry writes are read off the laws of State. -/

namespace Sys2Proof.Machine

/-! ## The saved status words -/

theorem spsrOf_eq_of_sameSpsrs {s t : State} (h : s.sameSpsrs t) (b : Bank) : t.spsrOf b = s.spsrOf b := by
  obtain ⟨hfiq, hirq, hsvc, habt, hund⟩ := h
  cases b
  case usr => rfl
  case fiq => exact congrArg some hfiq
  case irq => exact congrArg some hirq
  case svc => exact congrArg some hsvc
  case abt => exact congrArg some habt
  case und => exact congrArg some hund

/-- For a bank that has a saved status word; the user bank's write writes nothing (R34). -/
theorem spsrOf_setSpsrOf {b : Bank} (hb : b ≠ .usr) (s : State) (p : Psr) (b' : Bank) :
    (s.setSpsrOf b p).spsrOf b' = if b' = b then some p else s.spsrOf b' := by
  cases b
  case usr => exact absurd rfl hb
  all_goals cases b' <;> rfl

theorem sameSpsrs_switchMode (s : State) (m : BitVec 5) : s.sameSpsrs (s.switchMode m) := by
  simp [State.sameSpsrs]

/-! ## The entry -/

section

variable (s : State) (e : Exception) (ret : Word)

/-- Every exception enters a mode that has a saved status word (R521, R33). -/
theorem bankOf_modeOf_ne_usr : bankOf (modeOf e) ≠ .usr := by
  cases e <;> decide

theorem cpsr_enter :
    (s.enter e ret).cpsr =
      { s.cpsr with t := false, i := true, f := s.cpsr.f || decide (e = .fiq), m := modeOf e } := by
  simp [State.enter, beq_eq_decide]

theorem spsrOf_enter (b : Bank) :
    (s.enter e ret).spsrOf b = if b = bankOf (modeOf e) then some s.cpsr else s.spsrOf b :=
  calc (s.enter e ret).spsrOf b
    _ = ((s.switchMode (modeOf e)).setSpsrOf (bankOf (modeOf e)) s.cpsr).spsrOf b :=
      spsrOf_eq_of_sameSpsrs ⟨rfl, rfl, rfl, rfl, rfl⟩ b
    _ = if b = bankOf (modeOf e) then some s.cpsr else (s.switchMode (modeOf e)).spsrOf b :=
      spsrOf_setSpsrOf (bankOf_modeOf_ne_usr e) _ _ b
    _ = if b = bankOf (modeOf e) then some s.cpsr else s.spsrOf b := by
      rw [spsrOf_eq_of_sameSpsrs (sameSpsrs_switchMode s (modeOf e)) b]

theorem spsr_enter : (s.enter e ret).spsr = some s.cpsr := by
  rw [State.spsr, cpsr_enter, spsrOf_enter, if_pos rfl]

/-- r15 is written after r14, and both after the mode switch. -/
theorem reg_enter (n : Reg) :
    (s.enter e ret).reg n =
      if 15 = n then vectorOf e else if 14 = n then ret else (s.switchMode (modeOf e)).reg n := by
  simp [State.enter]

theorem sameBanks_enter : (s.switchMode (modeOf e)).sameBanks (s.enter e ret) := by
  simp [State.sameBanks, State.enter]

theorem mem_enter : (s.enter e ret).mem = s.mem := by
  simp [State.enter]

theorem bus_enter : (s.enter e ret).bus = s.bus := by
  simp [State.enter]

theorem sameRest_enter : s.sameRest (s.enter e ret) := by
  simp [State.sameRest, State.enter]

end

/-- Settles O46, field by field of the state after the entry. -/
theorem enterResult : Obligations.EnterResult := by
  intro s e ret t
  refine ⟨cpsr_enter s e ret, spsr_enter s e ret, ?link, ?pc, rfl, ?regs, sameBanks_enter s e ret,
    ?spsrs, sameRest_enter s e ret, mem_enter s e ret,
    bus_enter s e ret⟩
  case link => exact reg_enter s e ret 14
  case pc => exact reg_enter s e ret 15
  case regs =>
    intro n h14 h15
    rw [reg_enter, if_neg h15.symm, if_neg h14.symm]
  case spsrs =>
    intro b hb
    rw [spsrOf_enter, if_neg hb]

end Sys2Proof.Machine
end

section
/-! The outer loop (R566): every step completes and costs a cycle, so a budget of cycles bounds the number of steps. -/

namespace Sys2Proof.Machine

/-! ## The cycles of a step (R170, R590) -/

theorem cycles_lt_charge (t : State) (kind : StepKind) (reloaded : Bool) :
    t.cycles < (t.charge kind reloaded).cycles :=
  Nat.lt_add_of_pos_right (cycleCost_pos _ _)

theorem cycles_raisePlus4 (s : State) (e : Exception) : (s.raisePlus4 e).cycles = s.cycles :=
  (Effect.enter s e _).cycles

/-- The poll counts no cycle: it wakes, and may enter an exception (R530). -/
theorem cycles_interruptPoll (s : State) : s.interruptPoll.cycles = s.cycles := by
  unfold State.interruptPoll
  dsimp only
  split
  · exact cycles_raisePlus4 s.wake .fiq
  · split
    · split <;> exact cycles_raisePlus4 s.wake .irq
    · exact wake_cycles s

theorem cycles_reloadIfFlush (s : State) : s.reloadIfFlush.cycles = s.cycles := by
  unfold State.reloadIfFlush
  split
  · exact reload_cycles s
  · rfl

theorem cycles_lt_completeInstr (t before : State) : t.cycles < (t.completeInstr before).cycles := by
  have hadvanced : (if t.flush then t.reload else t.advancePc before.width).cycles = t.cycles := by
    split <;> simp
  exact hadvanced.symm.trans_lt (cycles_lt_charge _ _ _)

/-- The instruction answers a next state (`exec_effect`) and counts no cycle of its own; the end of its step does. -/
theorem executeStep_eq_next (s : State) : ∃ t, executeStep s = .next t ∧ s.cycles < t.cycles := by
  obtain ⟨u, hu, heffect⟩ := exec_effect s.currentInstr s.pipelineAdvance
  refine ⟨u.completeInstr s, by simp only [executeStep, hu], ?_⟩
  calc s.cycles
    _ = u.cycles := heffect.cycles.symm
    _ < (u.completeInstr s).cycles := cycles_lt_completeInstr u s

/-- Each of the three ends of a step, an interrupt taken, a halted step, an instruction executed, is a next state
with more cycles (R565, R590). -/
theorem step_eq_next (s : State) : ∃ t, step s = .next t ∧ s.cycles < t.cycles := by
  have hpoll : s.clearBus.interruptPoll.cycles = s.cycles := cycles_interruptPoll s.clearBus
  simp only [step]
  rw [← hpoll]
  split
  · refine ⟨_, rfl, ?_⟩
    rw [← cycles_reloadIfFlush]
    exact cycles_lt_charge _ _ _
  · split
    · exact ⟨_, rfl, cycles_lt_charge _ _ _⟩
    · exact executeStep_eq_next _

/-! ## The loop -/

/-- After `k` steps from `s`, and no fewer, the cycle counter has reached `target`: in `t`. -/
structure ReachesFirst (target k : Nat) (s t : State) : Prop where
  steps : stepsTo k s t
  reached : target ≤ t.cycles
  before : ∀ j u, j < k → stepsTo j s u → u.cycles < target

theorem ReachesFirst.refl {target : Nat} {s : State} (h : target ≤ s.cycles) : ReachesFirst target 0 s s :=
  ⟨rfl, h, fun j _ hj => absurd hj j.not_lt_zero⟩

/-- One more step at the beginning, from a state below the target. -/
theorem ReachesFirst.cons {target k : Nat} {s u t : State} (hs : s.cycles < target) (hu : step s = .next u)
    (h : ReachesFirst target k u t) : ReachesFirst target (k + 1) s t := by
  refine ⟨⟨u, hu, h.steps⟩, h.reached, ?_⟩
  intro j v hj hv
  cases j with
  | zero =>
    obtain rfl : v = s := hv
    exact hs
  | succ j =>
    obtain ⟨u', hu', hv⟩ := hv
    obtain rfl : u = u' := by simpa [hu] using hu'
    exact h.before j v (Nat.lt_of_succ_lt_succ hj) hv

/-- As much fuel as cycles are missing is enough, since each step adds a cycle at least. -/
theorem runUntil_eq_next {target fuel : Nat} {s : State} (hfuel : target ≤ s.cycles + fuel) :
    ∃ k t, runUntil target fuel s = .next t ∧ ReachesFirst target k s t := by
  induction fuel generalizing s with
  | zero => exact ⟨0, s, rfl, .refl hfuel⟩
  | succ fuel ih =>
    by_cases hs : s.cycles < target
    · obtain ⟨u, hu, hcycles⟩ := step_eq_next s
      obtain ⟨k, t, hrun, hreach⟩ := ih (s := u) (by omega)
      exact ⟨k + 1, t, by simpa only [runUntil, if_pos hs, hu] using hrun, hreach.cons hs hu⟩
    · exact ⟨0, s, by simp only [runUntil, if_neg hs], .refl (Nat.not_lt.mp hs)⟩

theorem run_eq_next (budget : Nat) (s : State) :
    ∃ k t, run budget s = .next ⟨t, t.cycles - s.cycles⟩ ∧ ReachesFirst (s.cycles + budget) k s t := by
  obtain ⟨k, t, hrun, hreach⟩ := runUntil_eq_next (le_refl (s.cycles + budget))
  exact ⟨k, t, by simp only [run, hrun], hreach⟩

/-- The last of a positive number of steps, the converse of `stepsTo_snoc`. -/
theorem exists_last_of_stepsTo_succ {k : Nat} {s t : State} (h : stepsTo (k + 1) s t) :
    ∃ u, stepsTo k s u ∧ step u = .next t := by
  induction k generalizing s with
  | zero =>
    obtain ⟨u, hu, rfl⟩ := h
    exact ⟨s, rfl, hu⟩
  | succ k ih =>
    obtain ⟨v, hv, hk⟩ := h
    obtain ⟨u, hu, hlast⟩ := ih hk
    exact ⟨u, ⟨v, hv, hu⟩, hlast⟩

/-- Settles O14: `run` leaves the first state that reaches the budget; the start is that state exactly if the budget
is 0, and otherwise the state before the last step is still below it. -/
theorem runConsumesBudget : Obligations.RunConsumesBudget := by
  intro budget s
  obtain ⟨k, t, hrun, hsteps, hreached, hbefore⟩ := run_eq_next budget s
  refine ⟨k, t, t.cycles - s.cycles, hrun, hsteps, by omega, by omega, hbefore, ?zero, ?pos⟩
  case zero =>
    rintro rfl
    obtain rfl : k = 0 := Nat.eq_zero_of_not_pos fun hk => (hbefore 0 s hk rfl).false
    obtain rfl : t = s := hsteps
    exact ⟨rfl, rfl, Nat.sub_self _⟩
  case pos =>
    intro hpos
    cases k with
    | zero =>
      obtain rfl : t = s := hsteps
      omega
    | succ j =>
      obtain ⟨u, hu, hlast⟩ := exists_last_of_stepsTo_succ hsteps
      exact ⟨j, u, rfl, hu, hbefore j u j.lt_succ_self hu, hlast⟩

end Sys2Proof.Machine
end

section
/-! Decode and encode (30_encoding.md). Fields put together from bits give those bits back and a value cut into fields is
put together again, so each family of encodings reaches its own line of the decoder's map; the undefined space is what
no other line names. -/

namespace Sys2Proof

/-! ## Fields made of bits -/

@[simp] theorem getElem_bits3 (b2 b1 b0 : Bool) :
    (bits3 b2 b1 b0)[0] = b0 ∧ (bits3 b2 b1 b0)[1] = b1 ∧ (bits3 b2 b1 b0)[2] = b2 := by
  revert b2 b1 b0; decide

@[simp] theorem getElem_bits4 (b3 b2 b1 b0 : Bool) :
    (bits4 b3 b2 b1 b0)[0] = b0 ∧ (bits4 b3 b2 b1 b0)[1] = b1 ∧ (bits4 b3 b2 b1 b0)[2] = b2 ∧
      (bits4 b3 b2 b1 b0)[3] = b3 := by
  revert b3 b2 b1 b0; decide

@[simp] theorem getElem_bits8 (b7 b6 b5 b4 b3 b2 b1 b0 : Bool) :
    (bits8 b7 b6 b5 b4 b3 b2 b1 b0)[0] = b0 ∧ (bits8 b7 b6 b5 b4 b3 b2 b1 b0)[1] = b1 ∧
      (bits8 b7 b6 b5 b4 b3 b2 b1 b0)[2] = b2 ∧ (bits8 b7 b6 b5 b4 b3 b2 b1 b0)[3] = b3 ∧
      (bits8 b7 b6 b5 b4 b3 b2 b1 b0)[4] = b4 ∧ (bits8 b7 b6 b5 b4 b3 b2 b1 b0)[5] = b5 ∧
      (bits8 b7 b6 b5 b4 b3 b2 b1 b0)[6] = b6 ∧ (bits8 b7 b6 b5 b4 b3 b2 b1 b0)[7] = b7 := by
  revert b7 b6 b5 b4 b3 b2 b1 b0; decide

/-- The key byte of a branch or SWI: its upper half selects the instruction, the lower is the top of the 24-bit field
(R118, R122). -/
@[simp] theorem getElem_bits4_append (b3 b2 b1 b0 : Bool) (x : BitVec 4) :
    (bits4 b3 b2 b1 b0 ++ x)[4] = b0 ∧ (bits4 b3 b2 b1 b0 ++ x)[5] = b1 ∧ (bits4 b3 b2 b1 b0 ++ x)[6] = b2 ∧
      (bits4 b3 b2 b1 b0 ++ x)[7] = b3 := by
  revert b3 b2 b1 b0 x; decide

/-- Bits 24:21, the data-processing opcode, in the key byte (R108). -/
@[simp] theorem extract_opcode_bits8 (b7 b6 b5 b4 b3 b2 b1 b0 : Bool) :
    (bits8 b7 b6 b5 b4 b3 b2 b1 b0).extractLsb' 1 4 = bits4 b4 b3 b2 b1 := by
  revert b7 b6 b5 b4 b3 b2 b1 b0; decide

/-! ## The small fields -/

@[simp] theorem shiftTypeOfBits_bits (t : ShiftType) : ShiftType.ofBits t.hiBit t.loBit = t := by cases t <;> rfl

@[simp] theorem blockModeOfBits_bits (m : BlockMode) : BlockMode.ofBits m.pBit m.uBit = m := by cases m <;> rfl

@[simp] theorem indexModeOfBits_bits (m : IndexMode) : IndexMode.ofBits m.pBit m.wBit = m := by cases m <;> rfl

@[simp] theorem halfSelOfBit_bit (h : HalfSel) : HalfSel.ofBit h.bit = h := by cases h <;> rfl

/-- P = 0 with W = 1 is no addressing mode of its own: it selects the T forms (R116). -/
@[simp] theorem indexMode_not_pBit_and_wBit (m : IndexMode) : (!m.pBit && m.wBit) = false := by cases m <;> rfl

/-! ## Values cut into fields -/

/-- Two neighbouring pieces of a value are one piece. -/
theorem extract_append_extract {w : Nat} (x : BitVec w) {j k m n : Nat} (h : j = k + n) :
    x.extractLsb' j m ++ x.extractLsb' k n = x.extractLsb' k (m + n) := by
  subst h
  apply BitVec.eq_of_getLsbD_eq
  intro i hi
  simp only [BitVec.getLsbD_append, BitVec.getLsbD_extractLsb']
  by_cases hn : i < n
  · simp [hn, hi]
  · simp [hn, hi, show i - n < m by omega, show k + n + (i - n) = k + i by omega]

/-! A whole value from the pieces that the ARM formats cut it into, then from those of the Thumb formats. -/

@[simp] theorem pieces_4_1 (x : BitVec 5) : x.extractLsb' 1 4 ++ BitVec.ofBool x[0] = x := by
  revert x; decide

@[simp] theorem pieces_4_4 (x : BitVec 8) : x.extractLsb' 4 4 ++ x.extractLsb' 0 4 = x := by
  rw [extract_append_extract x]
  · exact BitVec.extractLsb'_eq_self
  · rfl

@[simp] theorem pieces_4_4_4 (x : BitVec 12) :
    x.extractLsb' 8 4 ++ x.extractLsb' 4 4 ++ x.extractLsb' 0 4 = x := by
  iterate 2 rw [extract_append_extract x]
  · exact BitVec.extractLsb'_eq_self
  all_goals rfl

@[simp] theorem pieces_4_4_4_4 (x : BitVec 16) :
    x.extractLsb' 12 4 ++ x.extractLsb' 8 4 ++ x.extractLsb' 4 4 ++ x.extractLsb' 0 4 = x := by
  iterate 3 rw [extract_append_extract x]
  · exact BitVec.extractLsb'_eq_self
  all_goals rfl

@[simp] theorem pieces_4_4_4_4_4_4 (x : BitVec 24) :
    x.extractLsb' 20 4 ++ x.extractLsb' 16 4 ++ x.extractLsb' 12 4 ++ x.extractLsb' 8 4 ++ x.extractLsb' 4 4 ++
      x.extractLsb' 0 4 = x := by
  iterate 5 rw [extract_append_extract x]
  · exact BitVec.extractLsb'_eq_self
  all_goals rfl

@[simp] theorem pieces_8_4_4_4_4_4 (x : BitVec 28) :
    x.extractLsb' 20 8 ++ x.extractLsb' 16 4 ++ x.extractLsb' 12 4 ++ x.extractLsb' 8 4 ++ x.extractLsb' 4 4 ++
      x.extractLsb' 0 4 = x := by
  iterate 5 rw [extract_append_extract x]
  · exact BitVec.extractLsb'_eq_self
  all_goals rfl

@[simp] theorem pieces_1_3 (x : BitVec 4) : BitVec.ofBool x[3] ++ x.extractLsb' 0 3 = x := by
  revert x; decide

@[simp] theorem pieces_1_2 (x : BitVec 3) : BitVec.ofBool x[2] ++ x.extractLsb' 0 2 = x := by
  revert x; decide

@[simp] theorem pieces_3_2 (x : BitVec 5) : x.extractLsb' 2 3 ++ x.extractLsb' 0 2 = x := by
  revert x; decide

@[simp] theorem pieces_2_3_3 (x : BitVec 8) :
    x.extractLsb' 6 2 ++ x.extractLsb' 3 3 ++ x.extractLsb' 0 3 = x := by
  iterate 2 rw [extract_append_extract x]
  · exact BitVec.extractLsb'_eq_self
  all_goals rfl

@[simp] theorem pieces_3_2_3_3 (x : BitVec 11) :
    x.extractLsb' 8 3 ++ x.extractLsb' 6 2 ++ x.extractLsb' 3 3 ++ x.extractLsb' 0 3 = x := by
  iterate 3 rw [extract_append_extract x]
  · exact BitVec.extractLsb'_eq_self
  all_goals rfl

@[simp] theorem pieces_5_3_2_3_3 (x : BitVec 16) :
    x.extractLsb' 11 5 ++ x.extractLsb' 8 3 ++ x.extractLsb' 6 2 ++ x.extractLsb' 3 3 ++ x.extractLsb' 0 3 = x := by
  iterate 4 rw [extract_append_extract x]
  · exact BitVec.extractLsb'_eq_self
  all_goals rfl

/-! ## The ARM set -/

theorem decodeArmFields_encodeDp (c : Cond) (o3 o2 o1 o0 sb : Bool) (rd rn : BitVec 4) (op2 : Operand2)
    (h : (o3 && !o2 && !sb) = false) :
    decodeArmFields (encodeDp c o3 o2 o1 o0 sb rd rn op2) =
      dataProcessingOf (bits4 o3 o2 o1 o0) c sb (Reg.ofBits rd) (Reg.ofBits rn) op2 := by
  cases op2 with
  | imm rot imm8 =>
    simp [decodeArmFields, encodeDp, Operand2.encode, ArmFields.dataProcessing, ArmFields.isMisc, ArmFields.imm8, h]
  | shiftImm type imm5 rm =>
    simp [decodeArmFields, encodeDp, Operand2.encode, ArmFields.dataProcessing, ArmFields.isMisc,
      ArmFields.shiftType, ArmFields.imm5, h]
  | shiftReg type rs rm =>
    simp [decodeArmFields, encodeDp, Operand2.encode, ArmFields.dataProcessing, ArmFields.isMisc,
      ArmFields.shiftType, h]

theorem decodeArmFields_encodeMul (c : Cond) (b23 b22 b21 sb : Bool) (hi lo : BitVec 4) (rs rm : Reg) :
    decodeArmFields (encodeMul c b23 b22 b21 sb hi lo rs rm) =
      (encodeMul c b23 b22 b21 sb hi lo rs rm).multiplyOrSwap := by
  simp [decodeArmFields, encodeMul]

theorem decodeArmFields_encodeMisc (c : Cond) (b22 b21 : Bool) (rn rd rs sh rm : BitVec 4)
    (h : (sh[3] && sh[0]) = false) :
    decodeArmFields (encodeMisc c b22 b21 rn rd rs sh rm) = (encodeMisc c b22 b21 rn rd rs sh rm).misc := by
  simp [decodeArmFields, encodeMisc, ArmFields.isMisc, h]

theorem decodeArmFields_encodeSwap (c : Cond) (b22 : Bool) (rd rm rn : Reg) :
    decodeArmFields (encodeMisc c b22 false (Reg.bits rn) (Reg.bits rd) 0 9 (Reg.bits rm)) =
      if b22 then .swpb c rd rm rn else .swp c rd rm rn := by
  cases b22 <;> simp [decodeArmFields, encodeMisc, ArmFields.multiplyOrSwap]

theorem decodeArmFields_encodeSingle (c : Cond) (p up byte w load : Bool) (rd rn : Reg) (off : Offset) :
    decodeArmFields (encodeSingle c p up byte w load rd rn off) =
      (encodeSingle c p up byte w load rd rn off).singleTransfer off := by
  cases off with
  | imm imm12 => simp [decodeArmFields, encodeSingle, Offset.encode, ArmFields.imm12]
  | shifted type imm5 rm =>
    simp [decodeArmFields, encodeSingle, Offset.encode, ArmFields.shiftType, ArmFields.imm5]

theorem decodeArmFields_encodeHalf (c : Cond) (mode : IndexMode) (up load s h : Bool) (rd rn : Reg)
    (off : HalfOffset) (hsh : (s || h) = true) :
    decodeArmFields (encodeHalf c mode up load s h rd rn off) =
      (encodeHalf c mode up load s h rd rn off).halfTransfer := by
  simp [decodeArmFields, encodeHalf, hsh]

theorem decodeArmFields_encodeMsr (c : Cond) (r : Bool) (m : PsrFields) (src : MsrOperand) :
    decodeArmFields (encodeMsr c r m src) = if r then .msrSpsr c m src else .msrCpsr c m src := by
  cases src with
  | imm rot imm8 => simp [decodeArmFields, encodeMsr, ArmFields.isMisc, ArmFields.miscImm, ArmFields.psrFields,
      ArmFields.imm8]
  | reg rm => cases r <;> simp [decodeArmFields, encodeMsr, encodeMisc, ArmFields.isMisc, ArmFields.misc,
      ArmFields.psrFields]

theorem decodeArmFields_encodeBlock (c : Cond) (mode : BlockMode) (sb wb load : Bool) (rn : Reg) (l : BitVec 16) :
    decodeArmFields (encodeBlock c mode sb wb load rn l) =
      if load then .ldm c mode sb wb rn l else .stm c mode sb wb rn l := by
  simp [decodeArmFields, encodeBlock, ArmFields.list]

/-- The 24-bit field of a branch or SWI is read back: its top nibble stands in the key byte. -/
theorem imm24_encodeImm24 (c : Cond) (b27 b26 b25 b24 : Bool) (i : BitVec 24) :
    (encodeImm24 c b27 b26 b25 b24 i).imm24 = i := by
  simp only [encodeImm24, ArmFields.imm24]
  rw [append_extract_lo (n := 4) (m := 4) _ _ _ _ le_rfl, BitVec.extractLsb'_eq_self]
  exact pieces_4_4_4_4_4_4 i

theorem decodeArmFields_encodeBranch (c : Cond) (b24 : Bool) (i : BitVec 24) :
    decodeArmFields (encodeImm24 c true false true b24 i) = if b24 then .bl c i else .b c i := by
  have himm := imm24_encodeImm24 c true false true b24 i
  simp only [encodeImm24] at himm
  simp [decodeArmFields, encodeImm24, himm]

theorem decodeArmFields_encodeSwi (c : Cond) (i : BitVec 24) :
    decodeArmFields (encodeImm24 c true true true true i) = .swi c i := by
  have himm := imm24_encodeImm24 c true true true true i
  simp only [encodeImm24] at himm
  simp [decodeArmFields, encodeImm24, himm]

/-! ## The Thumb set -/

/-- H1 and H2 of format 5 (R130). -/
@[simp] theorem getElem_ofBool_append_ofBool (a b : Bool) :
    (BitVec.ofBool a ++ BitVec.ofBool b)[0] = b ∧ (BitVec.ofBool a ++ BitVec.ofBool b)[1] = a := by
  revert a b; decide

theorem decodeThumbFields_encodeThumbHi (b9 b8 : Bool) (rd rs : BitVec 4) :
    decodeThumbFields (encodeThumbHi b9 b8 rd rs) =
      match b9, b8 with
      | false, false => .tAddHi (Reg.ofBits rd) (Reg.ofBits rs)
      | false, true => .tCmpHi (Reg.ofBits rd) (Reg.ofBits rs)
      | true, false => .tMovHi (Reg.ofBits rd) (Reg.ofBits rs)
      | true, true => if rd[3] then .tBlx (Reg.ofBits rs) else .tBx (Reg.ofBits rs) := by
  cases b9 <;> cases b8 <;>
    simp [decodeThumbFields, encodeThumbHi, ThumbFields.hiOps, ThumbFields.hiRd, ThumbFields.hiRs]

/-- Bits 6:0 of format 13 (R138), below its selecting bit 7. -/
theorem imm7_encodeThumb8 (top : BitVec 5) (mid : BitVec 3) (b : Bool) (i : BitVec 7) :
    (encodeThumb8 top mid (BitVec.ofBool b ++ i)).imm7 = i := by
  apply BitVec.eq_of_getLsbD_eq
  intro k hk
  simp only [encodeThumb8, ThumbFields.imm7, BitVec.getLsbD_append, BitVec.getLsbD_extractLsb']
  interval_cases k <;> simp

theorem stackLow_encodeThumb8 (b : Bool) (i : BitVec 7) :
    (encodeThumb8 22 0 (BitVec.ofBool b ++ i)).stackLow = if b then .tSubSpImm i else .tAddSpImm i := by
  have hbit : (encodeThumb8 22 0 (BitVec.ofBool b ++ i)).low.getLsbD 1 = b := by
    simp only [encodeThumb8, BitVec.getLsbD_extractLsb', BitVec.getLsbD_append]
    simp
  simp only [ThumbFields.stackLow, imm7_encodeThumb8, hbit]
  rfl

/-- The fourteen conditions of the conditional branch (R141); the other two values of the field are other
instructions. -/
theorem decodeThumbFields_encodeCondBranch {c : Cond} (hal : c ≠ .al) (hnv : c ≠ .nv) (soff8 : BitVec 8) :
    decodeThumbFields
        (encodeThumb8 (13#4 ++ BitVec.ofBool (c.bits.getLsbD 3)) (c.bits.extractLsb' 0 3) soff8) =
      .tBCond c soff8 := by
  cases c
  case al | nv => contradiction
  all_goals
    simp [encodeThumb8, decodeThumbFields, ThumbFields.condBranch, ThumbFields.imm8, Cond.bits, Cond.ofBits]

/-! ## The undefined space of the ARM set -/

/-- `x AND mask = match`, bit by bit. -/
theorem and_beq_eq_bits4 (x m v : BitVec 4) :
    (x &&& m == v) = (((x[3] && m[3]) == v[3]) && ((x[2] && m[2]) == v[2]) && ((x[1] && m[1]) == v[1]) &&
      ((x[0] && m[0]) == v[0])) := by
  revert x m v; decide

theorem and_beq_eq_bits8 (x m v : BitVec 8) :
    (x &&& m == v) = (((x[7] && m[7]) == v[7]) && ((x[6] && m[6]) == v[6]) && ((x[5] && m[5]) == v[5]) &&
      ((x[4] && m[4]) == v[4]) && ((x[3] && m[3]) == v[3]) && ((x[2] && m[2]) == v[2]) &&
      ((x[1] && m[1]) == v[1]) && ((x[0] && m[0]) == v[0])) := by
  rw [Bool.eq_iff_iff]
  constructor
  · intro h
    obtain rfl := eq_of_beq h
    simp
  · intro h
    simp only [Bool.and_eq_true, beq_iff_eq] at h ⊢
    apply BitVec.eq_of_getElem_eq
    intro i hi
    rw [BitVec.getElem_and]
    interval_cases i <;> simp [h]

theorem and_beq_append {m n : Nat} (x mx vx : BitVec m) (y my vy : BitVec n) :
    ((x ++ y) &&& (mx ++ my) == vx ++ vy) = ((x &&& mx == vx) && (y &&& my == vy)) := by
  rw [BitVec.and_append, Bool.eq_iff_iff]
  simp only [beq_iff_eq, Bool.and_eq_true]
  constructor
  · intro h
    have hhi := congrArg (BitVec.extractLsb' n m) h
    have hlo := congrArg (BitVec.extractLsb' 0 n) h
    simp only [append_extract_hi] at hhi
    simp only [append_extract_lo _ _ 0 n (Nat.zero_add n).le, BitVec.extractLsb'_eq_self] at hlo
    exact ⟨hhi, hlo⟩
  · rintro ⟨rfl, rfl⟩
    rfl

/-- A row of the undefined space as masks and values of the fields `op`, `rd` and `sh`: the decode key (R101) and the
lowest bit of a doubleword transfer's register (R312). -/
def keyRow (mop vop : BitVec 8) (mrd vrd msh vsh : BitVec 4) : BitVec 28 × BitVec 28 :=
  (mop ++ 0#4 ++ mrd ++ 0#4 ++ msh ++ 0#4, vop ++ 0#4 ++ vrd ++ 0#4 ++ vsh ++ 0#4)

theorem low28_and_keyRow (f : ArmFields) (mop vop : BitVec 8) (mrd vrd msh vsh : BitVec 4) :
    (f.low28 &&& (keyRow mop vop mrd vrd msh vsh).1 == (keyRow mop vop mrd vrd msh vsh).2) =
      ((f.op &&& mop == vop) && (f.rd &&& mrd == vrd) && (f.sh &&& msh == vsh)) := by
  simp only [ArmFields.low28, keyRow, and_beq_append (m := 24) (n := 4), and_beq_append (m := 20) (n := 4),
    and_beq_append (m := 16) (n := 4), and_beq_append (m := 12) (n := 4), and_beq_append (m := 8) (n := 4)]
  simp

theorem undefinedArmRows_eq : undefinedArmRows =
    [keyRow 0xE5 0x00 1 1 0xF 0xD,
     keyRow 0xE5 0x00 1 1 0xF 0xF,
     keyRow 0xFC 0x04 0 0 0xF 0x9,
     keyRow 0xE5 0x04 1 1 0xF 0xD,
     keyRow 0xE5 0x04 1 1 0xF 0xF,
     keyRow 0xFB 0x10 0 0 0xF 0x1,
     keyRow 0xF9 0x10 0 0 0xB 0x2,
     keyRow 0xFB 0x10 0 0 0xB 0x3,
     keyRow 0xF9 0x10 0 0 0xF 0x4,
     keyRow 0xF9 0x11 0 0 0xF 0x9,
     keyRow 0xFB 0x12 0 0 0xF 0x9,
     keyRow 0xFF 0x16 0 0 0xF 0x1,
     keyRow 0xFF 0x16 0 0 0xB 0x3,
     keyRow 0xF8 0x18 0 0 0xF 0x9,
     keyRow 0xFB 0x30 0 0 0x0 0x0,
     keyRow 0xE0 0x60 0 0 0x1 0x1,
     keyRow 0xE0 0xC0 0 0 0x0 0x0,
     keyRow 0xF0 0xE0 0 0 0x0 0x0] := by decide

/-- The undefined space of the ARM set along the lines of the map R107: which keys none of its other lines names. -/
def ArmFields.isUndefined (f : ArmFields) : Bool :=
  match f.op[7], f.op[6], f.op[5] with
  | false, false, false =>
    if f.sh[3] && f.sh[0] then
      if f.sh[2] || f.sh[1] then f.sh[2] && !f.op[0] && f.rd[0]
      else if f.op[4] then f.op[3] || f.op[1] || f.op[0] else !f.op[3] && f.op[2]
    else
      f.isMisc && !f.sh[3] &&
        if f.sh[0] then (f.sh[1] || !f.sh[2]) && (f.op[2] || !f.op[1]) else f.sh[2] || f.sh[1]
  | false, false, true => f.isMisc && !f.op[1]
  | false, true, false => false
  | false, true, true => f.sh[0]
  | true, false, _ => false
  | true, true, false => true
  | true, true, true => !f.op[4]

theorem undefinedArmBits_low28 (f : ArmFields) : undefinedArmBits f.low28 = f.isUndefined := by
  rw [Bool.eq_iff_iff]
  simp only [undefinedArmBits, undefinedArmRows_eq, List.any_cons, List.any_nil, low28_and_keyRow,
    and_beq_eq_bits4, and_beq_eq_bits8]
  unfold ArmFields.isUndefined ArmFields.isMisc
  split <;> simp [*] <;> grind

/-- What the ARM decoder may answer for a word: the undefined instruction in the undefined space, a well-formed
instruction of the ARM set outside it. -/
inductive ArmFields.DecodesTo (f : ArmFields) : Instr → Prop
  | undefined (h : f.isUndefined = true) : f.DecodesTo f.undefined
  | instruction {i : Instr} (h : f.isUndefined = false) (hw : i.wellFormed = true) (ht : i.isThumb = false) :
      f.DecodesTo i

/-- The odd-register test of R312. -/
theorem regOfBits_even (v : BitVec 4) : ((Reg.ofBits v).val % 2 == 0) = !v[0] := by revert v; decide

theorem ArmFields.decodesTo_multiplyOrSwap {f : ArmFields}
    (hu : f.isUndefined = if f.op[4] then f.op[3] || f.op[1] || f.op[0] else !f.op[3] && f.op[2]) :
    f.DecodesTo f.multiplyOrSwap := by
  simp only [ArmFields.multiplyOrSwap]
  split
  case h_7 | h_8 =>
    split
    · exact .undefined (by simp_all)
    · exact .instruction (by simp_all) rfl rfl
  case h_9 =>
    refine .undefined ?_
    cases h4 : f.op[4] <;> cases h3 : f.op[3] <;> cases h2 : f.op[2] <;> cases h1 : f.op[1] <;> simp_all
  all_goals exact .instruction (by simp_all) rfl rfl

theorem ArmFields.decodesTo_halfTransfer {f : ArmFields}
    (hu : f.isUndefined = (f.sh[2] && !f.op[0] && f.rd[0])) : f.DecodesTo f.halfTransfer := by
  simp only [ArmFields.halfTransfer]
  split
  case h_1 | h_2 =>
    split
    · exact .undefined (by simp_all)
    · exact .instruction (by simp_all) (by simp_all [Instr.wellFormed, regOfBits_even]) rfl
  all_goals exact .instruction (by simp_all) rfl rfl

theorem ArmFields.decodesTo_misc {f : ArmFields}
    (hu : f.isUndefined =
      (!f.sh[3] && if f.sh[0] then (f.sh[1] || !f.sh[2]) && (f.op[2] || !f.op[1]) else f.sh[2] || f.sh[1]))
    (hkey : (f.sh[3] && f.sh[0]) = false) : f.DecodesTo f.misc := by
  simp only [ArmFields.misc]
  split
  case h_1 | h_4 => split <;> exact .instruction (by simp_all) rfl rfl
  case h_2 | h_3 | h_5 =>
    split
    · exact .instruction (by simp_all) rfl rfl
    · exact .undefined (by cases h1 : f.op[1] <;> simp_all)
  case h_6 =>
    split
    case h_2 => split <;> exact .instruction (by simp_all) rfl rfl
    all_goals exact .instruction (by simp_all) rfl rfl
  case h_7 =>
    refine .undefined ?_
    cases h3 : f.sh[3] <;> cases h2 : f.sh[2] <;> cases h1 : f.sh[1] <;> cases h0 : f.sh[0] <;> simp_all

theorem ArmFields.decodesTo_miscImm {f : ArmFields} (hu : f.isUndefined = !f.op[1]) : f.DecodesTo f.miscImm := by
  simp only [ArmFields.miscImm]
  split
  · split <;> exact .instruction (by simp_all) rfl rfl
  · exact .undefined (by simp_all)

theorem ArmFields.decodesTo_singleTransfer {f : ArmFields} (off : Offset) (hu : f.isUndefined = false) :
    f.DecodesTo (f.singleTransfer off) := by
  simp only [ArmFields.singleTransfer]
  split <;> exact .instruction hu rfl rfl

theorem ArmFields.decodesTo_dataProcessing {f : ArmFields} (op2 : Operand2) (hu : f.isUndefined = false) :
    f.DecodesTo (f.dataProcessing op2) := by
  unfold ArmFields.dataProcessing dataProcessingOf
  split <;> exact .instruction hu rfl rfl

theorem ArmFields.decodesTo_decodeArmFields (f : ArmFields) : f.DecodesTo (decodeArmFields f) := by
  have hu : f.isUndefined = f.isUndefined := rfl
  conv_rhs at hu => unfold ArmFields.isUndefined
  simp only [decodeArmFields]
  split
  case h_1 h7 h6 h5 =>
    split
    · split
      · exact decodesTo_halfTransfer (by simp_all)
      · exact decodesTo_multiplyOrSwap (by simp_all)
    · split
      · exact decodesTo_misc (by simp_all) ‹_›
      · split <;> exact decodesTo_dataProcessing _ (by simp_all)
  case h_2 h7 h6 h5 =>
    split
    · exact decodesTo_miscImm (by simp_all)
    · exact decodesTo_dataProcessing _ (by simp_all)
  case h_3 => exact decodesTo_singleTransfer _ (by simp_all)
  case h_4 =>
    split
    · exact .undefined (by simp_all)
    · exact decodesTo_singleTransfer _ (by simp_all)
  case h_5 | h_6 => split <;> exact .instruction (by simp_all) rfl rfl
  case h_7 => exact .undefined (by simp_all)
  case h_8 =>
    split
    · exact .instruction (by simp_all) rfl rfl
    · exact .undefined (by simp_all)

/-! ## The undefined space of the Thumb set -/

/-- A row of the undefined space as masks and values of the fields `top` and `mid`, which hold its whole key. -/
def thumbKeyRow (mtop vtop : BitVec 5) (mmid vmid : BitVec 3) : Half × Half :=
  (mtop ++ mmid ++ 0#2 ++ 0#3 ++ 0#3, vtop ++ vmid ++ 0#2 ++ 0#3 ++ 0#3)

theorem joinThumb_and_thumbKeyRow (f : ThumbFields) (mtop vtop : BitVec 5) (mmid vmid : BitVec 3) :
    (joinThumb f &&& (thumbKeyRow mtop vtop mmid vmid).1 == (thumbKeyRow mtop vtop mmid vmid).2) =
      ((f.top &&& mtop == vtop) && (f.mid &&& mmid == vmid)) := by
  simp only [joinThumb, thumbKeyRow, and_beq_append (m := 13) (n := 3), and_beq_append (m := 10) (n := 3),
    and_beq_append (m := 8) (n := 2), and_beq_append (m := 5) (n := 3)]
  simp

theorem undefinedThumbRows_eq : undefinedThumbRows =
    [thumbKeyRow 0x1F 0x16 7 1, thumbKeyRow 0x1F 0x16 2 2, thumbKeyRow 0x1F 0x17 4 0, thumbKeyRow 0x1F 0x17 7 7,
     thumbKeyRow 0x1F 0x1B 7 6, thumbKeyRow 0x1F 0x1D 0 0] := by decide

/-- The undefined space of the Thumb set along the lines of the map R125. -/
def ThumbFields.isUndefined (f : ThumbFields) : Bool :=
  match f.top.toNat with
  | 22 => match f.mid.toNat with | 0 | 4 | 5 => false | _ => true
  | 23 => match f.mid.toNat with | 4 | 5 | 6 => false | _ => true
  | 27 => f.mid.toNat == 6
  | 29 => true
  | _ => false

theorem undefinedThumbHalf_joinThumb (f : ThumbFields) : undefinedThumbHalf (joinThumb f) = f.isUndefined := by
  simp only [undefinedThumbHalf, undefinedThumbRows_eq, List.any_cons, List.any_nil, joinThumb_and_thumbKeyRow]
  unfold ThumbFields.isUndefined
  generalize f.top = top
  generalize f.mid = mid
  revert top mid
  decide

/-- What the Thumb decoder may answer for a halfword, as `ArmFields.DecodesTo`. -/
inductive ThumbFields.DecodesTo (f : ThumbFields) : Instr → Prop
  | undefined (h : f.isUndefined = true) : f.DecodesTo f.undefined
  | instruction {i : Instr} (h : f.isUndefined = false) (hw : i.wellFormed = true) (ht : i.isThumb = true) :
      f.DecodesTo i

theorem condOfBits_branches (v : BitVec 4) (h14 : v.toNat ≠ 14) (h15 : v.toNat ≠ 15) :
    (Cond.ofBits v != .al && Cond.ofBits v != .nv) = true := by
  revert v; decide

theorem ThumbFields.decodesTo_hiOps {f : ThumbFields} (hu : f.isUndefined = false) : f.DecodesTo f.hiOps := by
  unfold ThumbFields.hiOps
  split
  case h_4 => split <;> exact .instruction hu rfl rfl
  all_goals exact .instruction hu rfl rfl

theorem ThumbFields.decodesTo_alu {f : ThumbFields} (hu : f.isUndefined = false) : f.DecodesTo f.alu := by
  unfold ThumbFields.alu
  split <;> exact .instruction hu rfl rfl

theorem ThumbFields.decodesTo_registerOffset {f : ThumbFields} (hu : f.isUndefined = false) :
    f.DecodesTo f.registerOffset := by
  unfold ThumbFields.registerOffset
  split <;> exact .instruction hu rfl rfl

theorem ThumbFields.decodesTo_stackLow {f : ThumbFields}
    (hu : f.isUndefined = match f.mid.toNat with | 0 | 4 | 5 => false | _ => true) : f.DecodesTo f.stackLow := by
  unfold ThumbFields.stackLow
  split
  case h_1 => split <;> exact .instruction (by simp_all) rfl rfl
  case h_2 | h_3 => exact .instruction (by simp_all) rfl rfl
  case h_4 => exact .undefined (by simp_all)

theorem ThumbFields.decodesTo_stackHigh {f : ThumbFields}
    (hu : f.isUndefined = match f.mid.toNat with | 4 | 5 | 6 => false | _ => true) : f.DecodesTo f.stackHigh := by
  unfold ThumbFields.stackHigh
  split
  case h_4 => exact .undefined (by simp_all)
  all_goals exact .instruction (by simp_all) rfl rfl

theorem ThumbFields.decodesTo_condBranch {f : ThumbFields}
    (hu : f.isUndefined = decide ((BitVec.ofBool (f.top.getLsbD 0) ++ f.mid).toNat = 14)) :
    f.DecodesTo f.condBranch := by
  unfold ThumbFields.condBranch
  dsimp only
  split
  case h_1 h => exact .undefined (by rw [hu, h]; rfl)
  case h_2 h => exact .instruction (by rw [hu, h]; rfl) rfl rfl
  case h_3 h14 h15 => exact .instruction (hu.trans (decide_eq_false h14)) (condOfBits_branches _ h14 h15) rfl

theorem ThumbFields.isUndefined_of_condBranch {f : ThumbFields} (h : f.top.toNat = 26 ∨ f.top.toNat = 27) :
    f.isUndefined = decide ((BitVec.ofBool (f.top.getLsbD 0) ++ f.mid).toNat = 14) := by
  unfold ThumbFields.isUndefined
  generalize f.top = top at h ⊢
  generalize f.mid = mid
  revert top mid
  decide

theorem ThumbFields.decodesTo_decodeThumbFields (f : ThumbFields) : f.DecodesTo (decodeThumbFields f) := by
  have hu : f.isUndefined = f.isUndefined := rfl
  conv_rhs at hu => unfold ThumbFields.isUndefined
  simp only [decodeThumbFields]
  split
  case h_4 =>
    simp only [*] at hu
    split <;> exact .instruction hu rfl rfl
  case h_9 =>
    simp only [*] at hu
    split
    · exact decodesTo_hiOps hu
    · exact decodesTo_alu hu
  case h_11 | h_12 => exact decodesTo_registerOffset (by simp_all)
  case h_23 => exact decodesTo_stackLow (by simp_all)
  case h_24 => exact decodesTo_stackHigh (by simp_all)
  case h_27 | h_28 =>
    exact decodesTo_condBranch (isUndefined_of_condBranch (by simp [*]))
  case h_30 => exact .undefined (by simp_all)
  all_goals exact .instruction (by simp_all) rfl rfl

/-! ## The statements -/

/-- Settles O2: both decoders answer as `DecodesTo` says, and the undefined instruction of the undefined space is well
formed. -/
theorem decodeIsWellFormed : Obligations.DecodeIsWellFormed := by
  constructor
  · intro w
    unfold decodeArm
    generalize splitArm w = f
    generalize hi : decodeArmFields f = i
    obtain h | ⟨_, hw, ht⟩ := hi ▸ f.decodesTo_decodeArmFields
    · exact ⟨(undefinedArmBits_low28 f).trans h, rfl⟩
    · exact ⟨hw, ht⟩
  · intro h
    unfold decodeThumb
    generalize splitThumb h = f
    generalize hi : decodeThumbFields f = i
    obtain h | ⟨_, hw, ht⟩ := hi ▸ f.decodesTo_decodeThumbFields
    · exact ⟨(undefinedThumbHalf_joinThumb f).trans h, rfl⟩
    · exact ⟨hw, ht⟩

theorem decodeArmFields_of_isUndefined {f : ArmFields} (hf : f.isUndefined = true) :
    decodeArmFields f = f.undefined := by
  generalize hi : decodeArmFields f = i
  obtain h | ⟨h, _, _⟩ := hi ▸ f.decodesTo_decodeArmFields
  · rfl
  · simp [hf] at h

theorem decodeThumbFields_of_isUndefined {f : ThumbFields} (hf : f.isUndefined = true) :
    decodeThumbFields f = f.undefined := by
  generalize hi : decodeThumbFields f = i
  obtain h | ⟨h, _, _⟩ := hi ▸ f.decodesTo_decodeThumbFields
  · rfl
  · simp [hf] at h

theorem decodeArmFields_encodeLow28 (c : Cond) (u : BitVec 28) (hu : undefinedArmBits u = true) :
    decodeArmFields (encodeLow28 c u) = .undefined c u := by
  have hlow : (encodeLow28 c u).low28 = u := pieces_8_4_4_4_4_4 u
  rw [decodeArmFields_of_isUndefined (by rw [← undefinedArmBits_low28, hlow, hu]), ArmFields.undefined, hlow]
  simp [encodeLow28]

theorem decodeThumbFields_splitThumb (h : Half) (hu : undefinedThumbHalf h = true) :
    decodeThumbFields (splitThumb h) = .tUndefined h := by
  have hjoin : joinThumb (splitThumb h) = h := pieces_5_3_2_3_3 h
  rw [decodeThumbFields_of_isUndefined (by rw [← undefinedThumbHalf_joinThumb, hjoin, hu]), ThumbFields.undefined, hjoin]

/-- The ARM half of the round trip, by families of encodings. -/
theorem decodeArmFields_of_encodeFields {i : Instr} {f : ArmFields} (hw : i.wellFormed = true)
    (h : encodeFields i = .arm f) : decodeArmFields f = i := by
  cases i
  case and | eor | sub | rsb | add | adc | sbc | rsc | tst | teq | cmp | cmn | orr | mov | bic | mvn =>
    cases h
    exact decodeArmFields_encodeDp _ _ _ _ _ _ _ _ _ (by simp)
  case mul | mla | umull | umlal | smull | smlal =>
    cases h
    exact (decodeArmFields_encodeMul _ _ _ _ _ _ _ _ _).trans (by simp [encodeMul, ArmFields.multiplyOrSwap])
  case smlaxy | smlawy | smulwy | smlalxy | smulxy | qadd | qsub | qdadd | qdsub | bx | blx =>
    cases h
    exact (decodeArmFields_encodeMisc _ _ _ _ _ _ _ _ (by simp)).trans (by simp [encodeMisc, ArmFields.misc])
  case bkpt =>
    cases h
    exact (decodeArmFields_encodeMisc _ _ _ _ _ _ _ _ (by simp)).trans
      (by simp [encodeMisc, ArmFields.misc, ArmFields.comment16])
  case mrs c src rd =>
    cases src <;> cases h <;>
      exact (decodeArmFields_encodeMisc _ _ _ _ _ _ _ _ (by simp)).trans (by simp [encodeMisc, ArmFields.misc])
  case swp c rd rm rn => cases h; exact decodeArmFields_encodeSwap c false rd rm rn
  case swpb c rd rm rn => cases h; exact decodeArmFields_encodeSwap c true rd rm rn
  case ldr | str | ldrb | strb | ldrt | strt | ldrbt | strbt =>
    cases h
    exact (decodeArmFields_encodeSingle _ _ _ _ _ _ _ _ _).trans (by simp [encodeSingle, ArmFields.singleTransfer])
  case ldrh _ _ _ _ _ off | strh _ _ _ _ _ off | ldrsb _ _ _ _ _ off | ldrsh _ _ _ _ _ off =>
    cases h
    refine (decodeArmFields_encodeHalf _ _ _ _ _ _ _ _ _ (by simp)).trans ?_
    cases off <;> simp [encodeHalf, HalfOffset.encode, ArmFields.halfTransfer, ArmFields.splitImm8]
  case ldrd _ _ _ rd _ off | strd _ _ _ rd _ off =>
    cases h
    refine (decodeArmFields_encodeHalf _ _ _ _ _ _ _ _ _ (by simp)).trans ?_
    have heven : (Reg.bits rd)[0] = false := by
      simpa using (regOfBits_even (Reg.bits rd)).symm.trans hw
    cases off <;> simp [encodeHalf, HalfOffset.encode, ArmFields.halfTransfer, ArmFields.splitImm8, heven]
  case ldm c mode sb wb rn l => cases h; exact decodeArmFields_encodeBlock c mode sb wb true rn l
  case stm c mode sb wb rn l => cases h; exact decodeArmFields_encodeBlock c mode sb wb false rn l
  case msrCpsr c m src => cases h; exact decodeArmFields_encodeMsr c false m src
  case msrSpsr c m src => cases h; exact decodeArmFields_encodeMsr c true m src
  case b c i => cases h; exact decodeArmFields_encodeBranch c false i
  case bl c i => cases h; exact decodeArmFields_encodeBranch c true i
  case swi c i => cases h; exact decodeArmFields_encodeSwi c i
  case undefined c u => cases h; exact decodeArmFields_encodeLow28 c u hw
  all_goals cases h

/-- The Thumb half of the round trip, by formats. -/
theorem decodeThumbFields_of_encodeFields {i : Instr} {f : ThumbFields} (hw : i.wellFormed = true)
    (h : encodeFields i = .thumb f) : decodeThumbFields f = i := by
  cases i
  case tLslImm | tLsrImm | tAsrImm | tStrImm | tLdrImm | tStrbImm | tLdrbImm | tStrhImm | tLdrhImm =>
    cases h
    simp [encodeThumb5, decodeThumbFields, ThumbFields.imm5]
  case tAddReg | tSubReg | tAddImm3 | tSubImm3 =>
    cases h
    simp [encodeThumb3, decodeThumbFields, ThumbFields.imm3]
  case tStrReg | tStrbReg | tLdrReg | tLdrbReg | tStrhReg | tLdsbReg | tLdrhReg | tLdshReg =>
    cases h
    simp [encodeThumb3, decodeThumbFields, ThumbFields.imm3, ThumbFields.registerOffset]
  case tMovImm | tCmpImm | tAddImm8 | tSubImm8 | tLdrPc | tStrSp | tLdrSp | tAddPc | tAddSp | tStmia | tLdmia =>
    cases h
    simp [encodeThumb8, decodeThumbFields, ThumbFields.imm8]
  case tAnd | tEor | tLslReg | tLsrReg | tAsrReg | tAdc | tSbc | tRorReg | tTst | tNeg | tCmpReg | tCmn | tOrr |
      tMul | tBic | tMvn =>
    cases h
    simp [encodeThumbAlu, decodeThumbFields, ThumbFields.alu]
    rfl
  case tAddHi | tCmpHi | tMovHi | tBx | tBlx =>
    cases h
    exact decodeThumbFields_encodeThumbHi _ _ _ _
  case tAddSpImm i => cases h; exact stackLow_encodeThumb8 false i
  case tSubSpImm i => cases h; exact stackLow_encodeThumb8 true i
  case tPush r l =>
    cases h
    cases r
    · exact congrArg (Instr.tPush false) (pieces_2_3_3 l)
    · exact congrArg (Instr.tPush true) (pieces_2_3_3 l)
  case tPop r l =>
    cases h
    cases r
    · exact congrArg (Instr.tPop false) (pieces_2_3_3 l)
    · exact congrArg (Instr.tPop true) (pieces_2_3_3 l)
  case tBCond c s =>
    cases h
    simp only [Instr.wellFormed, Bool.and_eq_true, bne_iff_ne] at hw
    exact decodeThumbFields_encodeCondBranch hw.1 hw.2 s
  case tSwi i =>
    cases h
    simp [encodeThumb8, decodeThumbFields, ThumbFields.condBranch, ThumbFields.imm8]
  case tBkpt i => cases h; exact congrArg Instr.tBkpt (pieces_2_3_3 i)
  case tB | tBlHigh | tBlLow =>
    cases h
    simp [encodeThumb11, decodeThumbFields, ThumbFields.off11]
  case tUndefined u => cases h; exact decodeThumbFields_splitThumb u hw
  case mrs c src rd => cases src <;> cases h
  all_goals cases h

/-- Settles O1: the fields of the encoded word are those that `encodeFields` wrote, and each family of them is read
back. -/
theorem decodeEncode : Obligations.DecodeEncode := by
  intro i hw
  unfold decode encode
  cases h : encodeFields i with
  | arm f => simp only [decodeArm, splitArm_joinArm, decodeArmFields_of_encodeFields hw h]
  | thumb f => simp only [decodeThumb, splitThumb_joinThumb, decodeThumbFields_of_encodeFields hw h]

/-- Settles O3, word by word. -/
theorem specWordsDecode : Obligations.SpecWordsDecode := by
  refine ⟨?_, ?_, ?_, ?_, ?_, ?_, ?_, ?_, ?_, ?_, ?_, ?_, ?_⟩ <;> decide

end Sys2Proof
end

section
/-! The step at its boundary (10_state.md sections 4 to 6, 40_step_pipeline_condition.md section 1, 60_exceptions.md
sections 3 and 5): the boundary invariant, the word that a step runs, reset, the interrupts, and what the environment
does between steps. -/

namespace Sys2Proof.Machine

/-! ## The boundary invariant (R37, R38, R40) -/

/-- A fetch in Thumb state reads a halfword, so the upper half of its slot is 0 (R37). -/
theorem readSized_half_ushiftRight (m : Memory) (a : Word) : m.readSized .half a >>> 16 = 0 := by
  apply BitVec.eq_of_getLsbD_eq
  intro i hi
  simp [Memory.readSized]

/-- Whatever Thumb state fetches fits its slot. -/
theorem slotsFit_of_fetched {s : State} {m m' : Memory} {a a' : Word}
    (h0 : s.slot0 = m.readSized (fetchSize s.cpsr.t) a) (h1 : s.slot1 = m'.readSized (fetchSize s.cpsr.t) a') :
    s.slotsFit = true := by
  cases ht : s.cpsr.t <;> simp [State.slotsFit, h0, h1, ht, fetchSize, readSized_half_ushiftRight]

theorem boundary_reload {s : State} (hmem : s.mem.wf = true) : s.reload.boundary := by
  refine ⟨rfl, ?aligned, slotsFit_of_fetched rfl rfl, hmem⟩
  have hpc : s.reload.reg 15 = alignWidth s.cpsr.t (s.reg 15) + 2 * widthOf s.cpsr.t := by
    simp only [State.reload, reg_setReg, if_true]
  have halign := alignWidth_add s.cpsr.t _ _ (alignWidth_idem s.cpsr.t (s.reg 15)) (alignWidth_two_width _)
  rw [← hpc] at halign
  simpa [State.pcAligned] using halign

/-- The cycles are no part of the invariant. -/
theorem boundary_charge {s : State} (h : s.boundary) (kind : StepKind) (reloaded : Bool) :
    (s.charge kind reloaded).boundary := h

/-- An instruction that discards nothing left T, r15 and the slots of the advance alone, so the advance of r15 by the
width keeps it aligned. -/
theorem boundary_advancePc {s t : State} (hs : s.boundary) (ht : Effect s.pipelineAdvance t) (hflush : t.flush = false) :
    (t.advancePc s.width).boundary := by
  obtain ⟨-, haligned, hslots, hmem⟩ := hs
  obtain ⟨-, hthumb, hpc⟩ := ht.quiet hflush
  replace hthumb : t.cpsr.t = s.cpsr.t := hthumb
  replace hpc : t.reg 15 = s.reg 15 := hpc
  refine ⟨hflush, ?_, ?_, ht.memWf hmem⟩
  · rw [State.pcAligned, beq_iff_eq] at haligned
    have := alignWidth_add s.cpsr.t _ _ haligned (alignWidth_width s.cpsr.t)
    simpa [State.pcAligned, hthumb, hpc, State.width] using this
  · have h0 : t.slot0 = s.slot1 := ht.slot0
    have h1 : t.slot1 = s.mem.readSized (fetchSize s.cpsr.t) (s.reg 15) := ht.slot1
    cases hc : s.cpsr.t <;>
      simp_all [State.slotsFit, fetchSize, readSized_half_ushiftRight]

theorem boundary_completeInstr {s t : State} (hs : s.boundary) (ht : Effect s.pipelineAdvance t) :
    (t.completeInstr s).boundary := by
  obtain ⟨-, -, -, hmem⟩ := id hs
  apply boundary_charge
  split
  · exact boundary_reload (ht.memWf hmem)
  case isFalse hflush => exact boundary_advancePc hs ht (by simpa using hflush)

/-- A poll that takes an interrupt enters an exception; only the request may change besides (R525, R530). -/
theorem interruptPoll_of_interrupted {s : State} (h : s.interrupted = true) :
    ∃ e pending, s.interruptPoll = { s.wake.raisePlus4 e with pending := pending } := by
  unfold State.interruptPoll
  cases hfiq : s.takesFiq
  case true => exact ⟨.fiq, _, rfl⟩
  case false =>
    have hirq : s.takesIrq = true := by simpa [State.interrupted, hfiq] using h
    simp only [hirq, if_true, Bool.false_eq_true, if_false]
    split
    · exact ⟨.irq, _, rfl⟩
    · exact ⟨.irq, _, rfl⟩

theorem flush_raisePlus4 (s : State) (e : Exception) : (s.raisePlus4 e).flush = true := setPc_flush _ _

theorem memWf_raisePlus4 {s : State} (h : s.mem.wf = true) (e : Exception) : (s.raisePlus4 e).mem.wf = true :=
  (Effect.enter s e _).memWf h

/-- Settles O7: a step that discards the pipeline ends in a reload, which sets the invariant up anew; the others leave
it as it was, by `Effect`. -/
theorem boundaryInvariant : Obligations.BoundaryInvariant := by
  intro s t hs hstep
  have hclear : s.clearBus.boundary := hs
  obtain ⟨-, -, -, hmem⟩ := id hs
  simp only [step] at hstep
  split at hstep
  case isTrue hi =>
    obtain ⟨e, pending, hpoll⟩ := interruptPoll_of_interrupted hi
    rw [hpoll] at hstep
    cases hstep
    apply boundary_charge
    rw [State.reloadIfFlush, if_pos (flush_raisePlus4 _ e)]
    exact boundary_reload (memWf_raisePlus4 (s := s.clearBus.wake) hmem e)
  case isFalse hi =>
    rw [interruptPoll_of_not_interrupted (by simpa using hi)] at hstep
    have hwake : s.clearBus.wake.boundary := hs
    split at hstep
    · cases hstep
      exact boundary_charge hwake _ _
    · obtain ⟨u, hu, heffect⟩ := exec_effect s.clearBus.wake.currentInstr s.clearBus.wake.pipelineAdvance
      simp only [executeStep, hu] at hstep
      cases hstep
      exact boundary_completeInstr hwake heffect

/-- Settles O6. -/
theorem stepNeverStops : Obligations.StepNeverStops := step_eq_next

/-! ## The instruction that a step runs (R170) -/

/-- At an aligned fetch address the next instruction's address is aligned too. -/
theorem alignTo_instrAddr {s : State} (h : s.pcAligned = true) :
    alignTo (fetchSize s.cpsr.t) s.instrAddr = s.instrAddr := by
  have hsub := alignWidth_add s.cpsr.t (s.reg 15) (-(2 * widthOf s.cpsr.t)) (by simpa [State.pcAligned] using h)
    (by cases s.cpsr.t <;> decide)
  rw [← BitVec.sub_eq_add_neg] at hsub
  unfold State.instrAddr State.width
  cases ht : s.cpsr.t <;> rw [ht] at hsub <;> exact hsub

/-- The bytes in memory at the next address are those of a slot that holds what memory holds there. -/
theorem currentInstr_of_nextBytes {s : State} {i : Instr} {rest : List Byte} (haligned : s.pcAligned = true)
    (hslot : s.slot0 = s.mem.readSized (fetchSize s.cpsr.t) s.instrAddr)
    (hi : decodeBytes s.cpsr.t s.nextBytes = .ok (i, rest)) : s.currentInstr = i := by
  have ha := alignTo_instrAddr haligned
  unfold State.currentInstr
  cases ht : s.cpsr.t
  case false =>
    simp only [ht, fetchSize, Bool.false_eq_true, if_false] at ha hslot
    simp only [ht, State.nextBytes, Bool.false_eq_true, if_false, decodeBytes, Except.ok.injEq, Prod.mk.injEq] at hi
    simp only [decodeFetched, hslot, Memory.readSized, ha, Bool.false_eq_true, if_false, hi.1]
  case true =>
    simp only [ht, fetchSize, if_true] at ha hslot
    simp only [ht, State.nextBytes, if_true, decodeBytes, Except.ok.injEq, Prod.mk.injEq] at hi
    simp only [decodeFetched, hslot, Memory.readSized, ha, if_true, BitVec.setWidth_setWidth_of_le _ (by decide : 16 ≤ 32),
      BitVec.setWidth_eq, hi.1]

/-- Settles O4. -/
theorem stepRunsTheDecodedInstruction : Obligations.StepRunsTheDecodedInstruction := by
  intro s i t hi hh hexec
  refine ⟨fun hcur => steppedTo_of_exec hi hh ?_, fun haligned hslot rest hbytes => steppedTo_of_exec hi hh ?_⟩
  · exact (congrArg (exec · s.clearBus.pipelineAdvance) hcur).trans hexec
  · rw [currentInstr_of_nextBytes haligned hslot hbytes, hexec]

/-! ## Placing an instruction (assumption log 12) -/

theorem ofNat_div_append_ofNat (m n w : Nat) :
    BitVec.ofNat m (w / 2 ^ n) ++ BitVec.ofNat n w = BitVec.ofNat (m + n) w := by
  apply BitVec.eq_of_getLsbD_eq
  intro i hi
  rw [BitVec.getLsbD_append, BitVec.getLsbD_ofNat, BitVec.getLsbD_ofNat, BitVec.getLsbD_ofNat,
    Nat.testBit_div_two_pow]
  by_cases hn : i < n
  · simp [hn, hi]
  · have hsub : i - n < m := by omega
    simp [hn, hi, hsub, Nat.sub_add_cancel (Nat.not_lt.mp hn)]

/-- The little-endian bytes of a table word are the word. -/
theorem decodeTableWord_eq {nbits w : Nat} {i : Instr} (h : decodeTableWord nbits w = some i) :
    i = if nbits = 16 then decodeThumb (BitVec.ofNat 16 w) else decodeArm (BitVec.ofNat 32 w) := by
  by_cases h32 : nbits = 32
  case pos =>
    subst h32
    cases h
    have h16 := ofNat_div_append_ofNat 8 8 (w / 256 / 256)
    have h24 := ofNat_div_append_ofNat 16 8 (w / 256)
    have h32 := ofNat_div_append_ofNat 24 8 w
    simp only [Nat.reducePow, Nat.reduceAdd] at h16 h24 h32
    exact congrArg decodeArm (by rw [h16, h24, h32])
  by_cases h16 : nbits = 16
  case pos =>
    subst h16
    cases h
    exact congrArg decodeThumb (ofNat_div_append_ofNat 8 8 w)
  simp [decodeTableWord, h32, h16] at h

theorem placeInstr_quiet (s : State) (nbits w : Nat) :
    (s.placeInstr nbits w).halted = false ∧ (s.placeInstr nbits w).interrupted = false := by
  unfold State.placeInstr
  dsimp only
  split <;> simp [State.interrupted, State.takesFiq, State.takesIrq, State.fiqRequest]

theorem placeInstr_fetched (s : State) (nbits w : Nat) :
    (s.placeInstr nbits w).cpsr.t = decide (nbits = 16) ∧
    (s.placeInstr nbits w).slot0 =
      if decide (nbits = 16) then (BitVec.ofNat 16 w).setWidth 32 else BitVec.ofNat 32 w := by
  unfold State.placeInstr
  dsimp only
  split <;> exact ⟨rfl, rfl⟩

theorem currentInstr_placeInstr (s : State) {nbits w : Nat} {i : Instr} (h : decodeTableWord nbits w = some i) :
    (s.placeInstr nbits w).currentInstr = i := by
  obtain ⟨ht, hslot⟩ := placeInstr_fetched s nbits w
  rw [State.currentInstr, ht, hslot, decodeTableWord_eq h]
  by_cases h16 : nbits = 16 <;>
    simp [h16, decodeFetched, BitVec.setWidth_setWidth_of_le _ (by decide : 16 ≤ 32)]

/-- Settles O5. -/
theorem placedWordRuns : Obligations.PlacedWordRuns := by
  intro s nbits w i t hdecode hexec
  obtain ⟨hhalted, hquiet⟩ := placeInstr_quiet s nbits w
  have hwidth : (s.placeInstr nbits w).width = widthOf (decide (nbits = 16)) :=
    congrArg widthOf (placeInstr_fetched s nbits w).1
  rw [← hwidth]
  refine steppedTo_of_exec hquiet hhalted ?_
  rw [State.withFetchWord, currentInstr_placeInstr s hdecode]
  exact hexec

/-! ## Reset (R45, R560) -/

/-- Settles O8: `reset` ends in a reload. -/
theorem resetBoundary : Obligations.ResetBoundary :=
  ⟨by unfold State.boundary; decide, fun _ hmem => boundary_reload hmem⟩

/-- The registers and the banks after reset do not depend on the state before it. -/
theorem reg_hostReset (s : State) (r : Reg) : s.hostReset.reg r = if r = 15 then 8 else 0 := by
  show State.reset.hostReset.reg r = _
  revert r
  decide

theorem shadow_hostReset (s : State) (b : Bank) (n : Reg) : s.hostReset.shadow b n = 0 := by
  have hreset : s.hostReset.shadow b n = State.reset.shadow b n := by cases b <;> rfl
  rw [hreset]
  clear hreset
  cases b <;> revert n <;> decide

theorem spsrOf_hostReset (s : State) {b : Bank} {p : Psr} (h : s.hostReset.spsrOf b = some p) : packPsr p = 0 := by
  cases b <;> cases h <;> exact (by decide : packPsr zeroPsr = 0)

/-- Settles O9. -/
theorem resetState : Obligations.ResetState :=
  ⟨by decide, fun s => ⟨reg_hostReset s, shadow_hostReset s, (by decide : packPsr resetPsr = 0x000000D3#32),
    fun _ _ => spsrOf_hostReset s,
    congrArg (s.mem.readSized .word) (by decide : alignWidth false 0 = 0),
    congrArg (s.mem.readSized .word) (by decide : alignWidth false 0 + widthOf false = 4), rfl, rfl, rfl, rfl, rfl,
    rfl⟩⟩

/-! ## The interrupts (R530) -/

/-- A request wakes the core (R541). -/
theorem wake_of_request {s : State} (h : s.pending ≠ 0 ∨ s.fiqRequest = true) :
    s.wake = { s with halted := false } := by
  have hwoken : (s.halted && !((s.pending != 0) || s.fiqRequest)) = false := by
    rcases h with h | h <;> simp_all
  exact congrArg (fun b => { s with halted := b }) hwoken

theorem wake_of_no_request {s : State} (hpending : s.pending = 0) (hreq : s.fiqRequest = false) : s.wake = s := by
  have hkept : (s.halted && !((s.pending != 0) || s.fiqRequest)) = s.halted := by simp_all
  exact congrArg (fun b => { s with halted := b }) hkept

/-- The end of a step whose poll left the discard flag set: a reload, and the cycles. -/
theorem steppedTo_of_interrupted {s t : State} (hi : s.interrupted = true) (hpoll : s.clearBus.interruptPoll = t)
    (hflush : t.flush = true) : steppedTo s t.reload := by
  obtain ⟨n, hn, hcharge⟩ := charge_eq_addCycles t.reload .interrupt t.flush
  have hi' : s.clearBus.interrupted = true := hi
  refine ⟨n, hn, ?_⟩
  simp only [step, hi', if_true, hpoll, State.completeInterrupt, State.reloadIfFlush, hflush]
  rw [hflush] at hcharge
  exact congrArg _ hcharge

/-- Settles O12. -/
theorem interruptSteps : Obligations.InterruptSteps := by
  intro s
  constructor
  · intro hhas hline hf
    have hreq : s.fiqRequest = true := by simp [State.fiqRequest, hhas, hline]
    have htakes : s.takesFiq = true := by simp [State.takesFiq, hreq, hf]
    refine steppedTo_of_interrupted (by simp [State.interrupted, htakes]) ?_ rfl
    have htakes' : s.clearBus.takesFiq = true := htakes
    simp only [State.interruptPoll, htakes', if_true, wake_of_request (s := s.clearBus) (.inr hreq)]
    rfl
  · intro hno hpending hi
    have hfiq : s.takesFiq = false := by
      rcases hno with h | h | h <;> simp [State.takesFiq, State.fiqRequest, h]
    have htakes : s.takesIrq = true := by simp_all [State.takesIrq]
    refine steppedTo_of_interrupted (by simp [State.interrupted, htakes]) ?_ rfl
    have hfiq' : s.clearBus.takesFiq = false := hfiq
    have htakes' : s.clearBus.takesIrq = true := htakes
    have hkeep := (Effect.enter { s.clearBus with halted := false } .irq (s.instrAddr + 4)).pending
    simp only [State.interruptPoll, hfiq', htakes', if_true, Bool.false_eq_true, if_false,
      wake_of_request (s := s.clearBus) (.inl hpending)]
    cases hack : s.cfg.irqAckClears
    · rw [if_neg (by simpa using hack), if_neg Bool.false_ne_true]
      exact congrArg (fun p => { State.enter { s.clearBus with halted := false } .irq (s.instrAddr + 4) with
        pending := p }) hkeep
    · rw [if_pos (by simpa using hack), if_pos rfl]
      rfl

/-! ## The environment and the halted state (R11, R42, R540 to R542, R567) -/

/-- A halted step without a request takes no interrupt and only adds cycles (R542). -/
theorem steppedTo_of_halted {s : State} (hh : s.halted = true) (hpending : s.pending = 0)
    (hreq : s.fiqRequest = false) : steppedTo s s.clearBus := by
  obtain ⟨n, hn, hcharge⟩ := charge_eq_addCycles s.clearBus .halted false
  have hi : s.clearBus.interrupted = false := by
    have hreq' : s.clearBus.fiqRequest = false := hreq
    simp [State.interrupted, State.takesFiq, State.takesIrq, hreq', hpending]
  have hwake : s.clearBus.wake = s.clearBus := wake_of_no_request hpending hreq
  refine ⟨n, hn, ?_⟩
  simp only [step]
  rw [interruptPoll_of_not_interrupted hi, hwake, if_neg (by simp [hi]), if_pos (show s.clearBus.halted = true from hh)]
  exact congrArg _ hcharge

/-- A masked request only wakes: the step is that of the woken state (R541). -/
theorem step_of_masked_request {s : State} (hi : s.interrupted = false)
    (hreq : s.pending ≠ 0 ∨ s.fiqRequest = true) : step s = step { s with halted := false } := by
  have hi' : s.clearBus.interrupted = false := hi
  have hpoll : s.clearBus.interruptPoll = ({ s with halted := false } : State).clearBus :=
    (interruptPoll_of_not_interrupted hi').trans (wake_of_request (s := s.clearBus) hreq)
  rw [step_eq_executeStep (s := { s with halted := false }) hi rfl]
  simp only [step, hi', hpoll, Bool.false_eq_true, if_false, clearBus_halted]

/-- Settles O13. -/
theorem environmentAndHaltedSteps : Obligations.EnvironmentAndHaltedSteps := by
  refine ⟨?requests, fun s => rfl, ?line, ?store, fun s hh => ⟨steppedTo_of_halted hh, step_of_masked_request⟩⟩
  case requests =>
    intro s mask
    refine ⟨fun k => BitVec.getLsbD_or, rfl, fun k => ?_, rfl⟩
    by_cases hk : k < 32
    · simp [State.lowerInterrupt, hk]
    · simp [State.lowerInterrupt, BitVec.getLsbD_of_ge s.pending k (by omega)]
  case line =>
    intro s level
    exact ⟨rfl, fun h => by simp [State.setFiqLine, h], fun h => by simp [State.setFiqLine, h]⟩
  case store =>
    intro s a b
    refine ⟨rfl, fun x => ?_, wf_write a.isLt⟩
    simp [State.envStore, Memory.byteAt, BitVec.toNat_inj]

end Sys2Proof.Machine
end

section
/-! The shifter by a register (R202), the operand forms (R109, R175, R281, R285, R302, R376), what the conditions say
after a comparison (R180, R223), and the return from exception by data processing (R212). -/

namespace Sys2Proof.Machine

/-! ## The shifter by a register (R202) -/

theorem shiftRegister_lsl (v : Word) {n : Nat} (c : Bool) (hn : 1 ≤ n) :
    (shiftRegister .lsl v n c).value.toNat = v.toNat * 2 ^ n % 2 ^ 32 ∧
      (shiftRegister .lsl v n c).carry = decide (v.toNat * 2 ^ n / 2 ^ 32 % 2 = 1) := by
  have hne : n ≠ 0 := by omega
  obtain hlt | rfl | hgt : n < 32 ∨ n = 32 ∨ 32 < n := by omega
  · have hpow : (2 : Nat) ^ 32 = 2 ^ (32 - n) * 2 ^ n := by rw [← Nat.pow_add, Nat.sub_add_cancel hlt.le]
    rw [show v.toNat * 2 ^ n / 2 ^ 32 = v.toNat / 2 ^ (32 - n) by
      rw [hpow, Nat.mul_div_mul_right _ _ (Nat.two_pow_pos n)]]
    simp [shiftRegister, hne, hlt, Nat.shiftLeft_eq, getLsbD_eq_quotient_odd]
  · rw [Nat.mul_mod_left, Nat.mul_div_cancel _ (by decide)]
    exact ⟨rfl, (getLsbD_eq_quotient_odd v 0).trans (by simp)⟩
  · obtain ⟨k, rfl⟩ : ∃ k, n = 33 + k := ⟨n - 33, by omega⟩
    have hmul : v.toNat * 2 ^ (33 + k) = v.toNat * 2 ^ k * 2 * 2 ^ 32 := by ring
    rw [hmul, Nat.mul_mod_left, Nat.mul_div_cancel _ (by decide), Nat.mul_mod_left]
    simp [shiftRegister, show 33 + k ≠ 32 by omega, show ¬ 33 + k < 32 by omega]

theorem shiftRegister_lsr (v : Word) {n : Nat} (c : Bool) (hn : 1 ≤ n) :
    (shiftRegister .lsr v n c).value.toNat = v.toNat / 2 ^ n ∧
      (shiftRegister .lsr v n c).carry = decide (v.toNat / 2 ^ (n - 1) % 2 = 1) := by
  have hne : n ≠ 0 := by omega
  obtain hlt | rfl | hgt : n < 32 ∨ n = 32 ∨ 32 < n := by omega
  · simp [shiftRegister, hne, hlt, Nat.shiftRight_eq_div_pow, getLsbD_eq_quotient_odd]
  · rw [Nat.div_eq_of_lt v.isLt]
    exact ⟨rfl, msb_eq_quotient_odd v⟩
  · have hzero {k : Nat} (hk : 32 ≤ k) : v.toNat / 2 ^ k = 0 :=
      Nat.div_eq_of_lt (v.isLt.trans_le (Nat.pow_le_pow_right (by decide) hk))
    rw [hzero hgt.le, hzero (by omega)]
    simp [shiftRegister, hne, hgt.ne', Nat.not_lt.mpr hgt.le]

/-- Bit `k` of a signed word, the sign from bit 31 on: the parity of the quotient that rounds down. -/
theorem quotient_odd_eq_getLsbD_sshiftRight (v : Word) (k : Nat) :
    decide (v.toInt / 2 ^ k % 2 = 1) = (v.sshiftRight k).getLsbD 0 := by
  rw [getLsbD_eq_quotient_odd, Nat.pow_zero, Nat.div_one, decide_eq_decide]
  have hshift : v.toInt / 2 ^ k = (v.sshiftRight k).toInt := by
    rw [BitVec.toInt_sshiftRight, Int.shiftRight_eq_div_pow]
    rfl
  rw [hshift, BitVec.toInt_eq_toNat_cond]
  omega

/-- From 31 on an arithmetic shift leaves copies of the sign. -/
theorem sshiftRight_eq_of_le (v : Word) {n : Nat} (hn : 31 ≤ n) : v.sshiftRight n = v.sshiftRight 31 := by
  apply BitVec.eq_of_getLsbD_eq
  intro i hi
  simp only [BitVec.getLsbD_sshiftRight, BitVec.msb_eq_getLsbD_last]
  obtain rfl | hpos : i = 0 ∨ 0 < i := by omega
  · obtain rfl | hgt : n = 31 ∨ 31 < n := by omega
    · rfl
    · simp [show ¬ n < 32 by omega]
  · simp [show ¬ n + i < 32 by omega, show ¬ 31 + i < 32 by omega]

theorem shiftRegister_asr (v : Word) {n : Nat} (c : Bool) (hn : 1 ≤ n) :
    (shiftRegister .asr v n c).value.toInt = v.toInt / 2 ^ n ∧
      (shiftRegister .asr v n c).carry = decide (v.toInt / 2 ^ (n - 1) % 2 = 1) := by
  have hne : n ≠ 0 := by omega
  have hvalue : (v.sshiftRight n).toInt = v.toInt / 2 ^ n := by
    rw [BitVec.toInt_sshiftRight, Int.shiftRight_eq_div_pow]
    rfl
  rw [quotient_odd_eq_getLsbD_sshiftRight, ← hvalue, BitVec.getLsbD_sshiftRight]
  by_cases hlt : n < 32
  · simp [shiftRegister, hne, hlt, show n - 1 < 32 by omega]
  · rw [sshiftRight_eq_of_le v (by omega : 31 ≤ n)]
    obtain rfl | hgt : n = 32 ∨ 32 < n := by omega
    · exact ⟨rfl, by simp [shiftRegister, BitVec.msb_eq_getLsbD_last]⟩
    · simp [shiftRegister, hne, hlt, show ¬ n - 1 < 32 by omega]

theorem shiftRegister_ror (v : Word) {n : Nat} (c : Bool) (hn : 1 ≤ n) :
    (shiftRegister .ror v n c).value = v.rotateRight n ∧ (shiftRegister .ror v n c).carry = (v.rotateRight n).msb := by
  have hne : n ≠ 0 := by omega
  have hmod : n % 32 < 32 := Nat.mod_lt _ (by decide)
  rw [← BitVec.rotateRight_mod_eq_rotateRight]
  by_cases hz : n % 32 = 0
  · have hzero : v.rotateRight 0 = v := by
      apply BitVec.eq_of_getLsbD_eq
      intro i hi
      simp [hi]
    simp [shiftRegister, hne, hz, hzero]
  · have hmsb : (v.rotateRight (n % 32)).msb = v.getLsbD (n % 32 - 1) := by
      have hlast : ¬ 31 < 32 - n % 32 % 32 := by omega
      have hsub : 31 - (32 - n % 32 % 32) = n % 32 - 1 := by omega
      simp only [BitVec.msb_eq_getLsbD_last, BitVec.getLsbD_rotateRight, Nat.reduceSub, hlast, hsub, decide_false,
        cond_false]
      rfl
    simp only [shiftRegister, hne, hz, if_false, ror32_eq_rotateRight v hmod, hmsb, and_self]

/-- Settles O16, one lemma per shift type. -/
theorem shifterRegister : Obligations.ShifterRegister := by
  intro v n c _
  refine ⟨?zero, fun hn => ⟨shiftRegister_lsl v c hn, shiftRegister_lsr v c hn, shiftRegister_asr v c hn, ?ror⟩⟩
  case zero =>
    rintro rfl type
    rfl
  case ror =>
    obtain ⟨hvalue, hcarry⟩ := shiftRegister_ror v c hn
    exact ⟨hvalue, hcarry.trans (congrArg BitVec.msb hvalue.symm)⟩

/-! ## Operand forms -/

/-- r15 reads as the instruction's address plus the reader's offset, in ARM state 8 and in Thumb state 4 behind the
fetch address (R175, R39). -/
theorem instrAddr_eq (s : State) : s.instrAddr = s.reg 15 - (if s.cpsr.t then 4 else 8) := by
  unfold State.instrAddr State.width
  cases s.cpsr.t <;> rfl

theorem rop_of_ne_pc {s : State} {r : Reg} (hr : r ≠ 15) (k : Word) : s.rop k r = s.reg r := if_neg hr

/-- The offset of the state's own width reads r15 as the fetch address. -/
theorem rop_eq_reg {s : State} {k : Word} (hk : k = if s.cpsr.t then 4 else 8) (r : Reg) : s.rop k r = s.reg r := by
  by_cases hr : r = 15
  · rw [hr, State.rop, if_pos rfl, State.pcRead, instrAddr_eq, hk, BitVec.sub_add_cancel]
  · exact rop_of_ne_pc hr k

theorem rotatedImmediate_eq (rot : BitVec 4) (imm8 : BitVec 8) :
    rotatedImmediate rot imm8 = (imm8.setWidth 32 : Word).rotateRight (2 * rot.toNat) :=
  ror32_eq_rotateRight _ (by omega)

theorem pcOffsetBytes_eq (o : PcOffset) : pcOffsetBytes o = if o = .plus12 then 12 else 8 := by cases o <;> rfl

theorem sshiftRight_31_eq (v : Word) : v.sshiftRight 31 = if v.msb then BitVec.allOnes 32 else 0 := by
  apply BitVec.eq_of_getLsbD_eq
  intro i hi
  have hbit : (v.sshiftRight 31).getLsbD i = v.msb := by
    rw [BitVec.getLsbD_sshiftRight, decide_eq_false (Nat.not_le.mpr hi), Bool.not_false, Bool.true_and]
    obtain rfl | hpos : i = 0 ∨ 0 < i := by omega
    · exact (BitVec.msb_eq_getLsbD_last v).symm
    · exact if_neg (by omega)
  rw [hbit]
  cases v.msb
  · exact BitVec.getLsbD_zero.symm
  · simp only [if_true, BitVec.getLsbD_allOnes, hi, decide_true]

/-- Settles O18, reader by reader. -/
theorem operandForms : Obligations.OperandForms := by
  refine ⟨?pc, ?dataProcessing, ?offsets, by decide⟩
  case pc =>
    intro s r k here
    have hhere : s.instrAddr = here := instrAddr_eq s
    refine ⟨hhere, by rw [← hhere]; rfl, fun ht => rop_eq_reg (by simp [ht]) r, fun ht => ?_⟩
    refine ⟨rop_eq_reg (by simp [ht]) r, ?_, rop_eq_reg (by simp [ht, pcOffsetBytes]) 15⟩
    rw [State.rop, if_pos rfl, State.pcRead, instrAddr_eq, ht]
    simp only [pcOffsetBytes, Bool.false_eq_true, if_false]
    bv_omega
  case dataProcessing =>
    intro s rn rm rs type rot imm8 imm5 rotated k
    have hk : pcOffsetBytes s.cfg.pcRegShiftOffset = k := pcOffsetBytes_eq _
    have hrotated : rotatedImmediate rot imm8 = rotated := rotatedImmediate_eq rot imm8
    have hbyte (v : Word) : (v.extractLsb' 0 8).toNat = v.toNat % 256 := by simp
    refine ⟨rfl, by simp only [State.operand2, hrotated], rfl, rfl, ?_, ?_, hrotated, rfl⟩
    · rw [← hk]; rfl
    · rw [← hk, ← hbyte]; rfl
  case offsets =>
    intro s rm type imm5 imm12 imm8 v
    refine ⟨?_, rfl, rfl, rfl, sshiftRight_31_eq v, toNat_rrx v s.cpsr.c, ?_, rfl⟩
    · exact BitVec.toNat_setWidth_of_le (by decide)
    · exact BitVec.toNat_setWidth_of_le (by decide)

/-! ## The conditions after a comparison (R180, R223) -/

/-- N and V of a difference agree exactly when it is not negative as an exact integer. -/
theorem msb_beq_not_fits32 (a b : Word) :
    ((a - b).msb == !fits32 (a.toInt - b.toInt)) = decide (b.toInt ≤ a.toInt) := by
  have ha := a.isLt
  have hb := b.isLt
  rw [fits32, Bool.eq_iff_iff, beq_iff_eq, Bool.eq_iff_iff]
  simp only [BitVec.msb_eq_decide, BitVec.toInt_eq_toNat_cond, BitVec.toNat_sub, Bool.not_and,
    decide_eq_true_eq, Bool.or_eq_true, Bool.not_eq_true', decide_eq_false_iff_not]
  omega

/-- Settles O22: the first two clauses are the tables; after CMP the flags are those of the exact difference. -/
theorem compareConditions : Obligations.CompareConditions := by
  refine ⟨by decide, ?table, ?compare⟩
  case table => intro p; simp [condPass]
  case compare =>
    intro s rn op2 t hexec a b
    obtain ⟨-, -, hcmp, -⟩ := comparisonResults s .al rn op2 rfl
    obtain rfl : s.flagAnswer (a - b) (decide (b.toNat ≤ a.toNat)) (!fits32 (a.toInt - b.toInt)) = t :=
      Host.Outcome.next.inj (hcmp.symm.trans hexec)
    have heq : a - b = 0 ↔ a = b := sub_eq_zero
    have heqNat : a = b ↔ a.toNat = b.toNat := BitVec.toNat_inj.symm
    have heqInt : a = b ↔ a.toInt = b.toInt := BitVec.toInt_inj.symm
    have hge := msb_beq_not_fits32 a b
    have hlt : ((a - b).msb != !fits32 (a.toInt - b.toInt)) = decide (a.toInt < b.toInt) := by
      rw [bne, hge, ← decide_not, decide_eq_decide, Int.not_le]
    refine ⟨?eq, ?ne, rfl, ?cc, ?hi, ?ls, hge, hlt, ?gt, ?le⟩ <;>
      simp only [condPass, State.flagAnswer, hge, hlt, heq, ← decide_not, ← Bool.decide_and, ← Bool.decide_or,
        decide_eq_decide]
    case cc => exact Nat.not_le
    case hi | ls =>
      rw [heqNat]
      omega
    case gt | le =>
      rw [heqInt]
      omega

/-! ## The return from exception (R212, R535) -/

theorem exceptionReturn_eq_returnAnswer (s : State) (target : Word) :
    s.exceptionReturn target = s.returnAnswer target := by
  unfold State.exceptionReturn State.restoreCpsr State.returnAnswer
  cases s.spsr <;> rfl

theorem dpWrite_pc_true {s : State} {r r' : Word} (flags : Psr) (hr : r = r') :
    s.dpWrite true 15 r flags = s.returnAnswer r' := by
  rw [← hr, ← exceptionReturn_eq_returnAnswer]
  rfl

/-- Settles O24: each of the twelve hands its result to the one write of a destination. -/
theorem pcDestinationReturns : Obligations.PcDestinationReturns := by
  intro s c rn op2 hc a b k nk
  refine ⟨?and, ?eor, ?sub, ?rsb, ?add, ?adc, ?sbc, ?rsc, ?orr, ?mov, ?bic, ?mvn⟩ <;>
    refine exec_eq_next_of_pass hc rfl (dpWrite_pc_true _ ?_)
  case sub => exact congrArg Sum.result (addWithCarry_complement_true_eq a b)
  case rsb => exact congrArg Sum.result (addWithCarry_complement_true_eq b a)
  case add => exact congrArg Sum.result (addWithCarry_false_eq a b)
  case adc => exact addWithCarry_result a b s.cpsr.c
  case sbc => exact congrArg Sum.result (addWithCarry_complement_eq a b s.cpsr.c)
  case rsc => exact congrArg Sum.result (addWithCarry_complement_eq b a s.cpsr.c)
  all_goals rfl

end Sys2Proof.Machine
end

section
/-! Status words (R27, R36), MRS and MSR (R375 to R379): a status word is a record of fields in the model and a word in
the rules, so each masked write of fields is shown to be the masked write of the word. -/

namespace Sys2Proof.Machine

/-! ## The image of a status word -/

theorem mode_packPsr (p : Psr) : (packPsr p).extractLsb' 0 5 = p.m := by
  rw [packPsr, append_extract_lo _ _ 0 5 (by decide), BitVec.extractLsb'_eq_self]

theorem reserved_packPsr (p : Psr) : (packPsr p).extractLsb' 8 19 = 0 := by
  rw [packPsr, append_extract_up _ _ 8 19 3 rfl, append_extract_up _ _ 3 19 2 rfl, append_extract_up _ _ 2 19 1 rfl,
    append_extract_up _ _ 1 19 0 rfl, append_extract_lo _ _ 0 19 (by decide), BitVec.extractLsb'_eq_self]
  rfl

theorem flags_packPsr (p : Psr) :
    (packPsr p).getLsbD 31 = p.n ∧ (packPsr p).getLsbD 30 = p.z ∧ (packPsr p).getLsbD 29 = p.c ∧
    (packPsr p).getLsbD 28 = p.v ∧ (packPsr p).getLsbD 27 = p.q ∧
    (packPsr p).getLsbD 7 = p.i ∧ (packPsr p).getLsbD 6 = p.f ∧ (packPsr p).getLsbD 5 = p.t := by
  simp only [packPsr, BitVec.getLsbD_append]
  simp

theorem unpackPsr_packPsr (p : Psr) : unpackPsr (packPsr p) = p := by
  obtain ⟨hn, hz, hc, hv, hq, hi, hf, ht⟩ := flags_packPsr p
  simp only [unpackPsr, hn, hz, hc, hv, hq, hi, hf, ht, mode_packPsr]

/-- The bits of a word that a mask selects come from `x`, the others stay (R376). -/
def underMask (w x mask : Word) : Word := (w &&& ~~~mask) ||| (x &&& mask)

theorem getLsbD_underMask (w x mask : Word) (i : Nat) :
    (underMask w x mask).getLsbD i = if mask.getLsbD i then x.getLsbD i else w.getLsbD i := by
  by_cases hi : i < 32
  · simp only [underMask, BitVec.getLsbD_or, BitVec.getLsbD_and, BitVec.getLsbD_not, hi, decide_true, Bool.true_and]
    cases mask.getLsbD i <;> simp
  · simp [BitVec.getLsbD_of_ge, Nat.not_lt.mp hi]

theorem underMask_zero (w x : Word) : underMask w x 0 = w := by
  apply BitVec.eq_of_getLsbD_eq
  intro i _
  simp [getLsbD_underMask]

theorem underMask_underMask (w x mask mask' : Word) :
    underMask (underMask w x mask) x mask' = underMask w x (mask ||| mask') := by
  apply BitVec.eq_of_getLsbD_eq
  intro i _
  cases hm : mask.getLsbD i <;> cases hm' : mask'.getLsbD i <;> simp [getLsbD_underMask, hm, hm']

/-- A write of the flag fields is a write of bits 31:27 (R376). -/
theorem packPsr_withFlagsOf (p : Psr) (x : Word) :
    packPsr (p.withFlagsOf (unpackPsr x)) = underMask (packPsr p) x 0xF8000000#32 := by
  apply BitVec.eq_of_getLsbD_eq
  intro i hi
  simp only [getLsbD_underMask, packPsr, Psr.withFlagsOf, unpackPsr, BitVec.getLsbD_append]
  interval_cases i <;> simp

/-- A write of I, F and M is a write of bits 7, 6 and 4:0 (R377). -/
theorem packPsr_withControlOf (p : Psr) (x : Word) :
    packPsr (p.withControlOf (unpackPsr x)) = underMask (packPsr p) x 0x000000DF#32 := by
  apply BitVec.eq_of_getLsbD_eq
  intro i hi
  simp only [getLsbD_underMask, packPsr, Psr.withControlOf, unpackPsr, BitVec.getLsbD_append]
  interval_cases i <;> simp

/-- A write of I, F, T and M is a write of bits 7:0 (R378). -/
theorem packPsr_withControlAndT (p : Psr) (x : Word) :
    packPsr (p.withControlAndT (unpackPsr x)) = underMask (packPsr p) x 0x000000FF#32 := by
  apply BitVec.eq_of_getLsbD_eq
  intro i hi
  simp only [getLsbD_underMask, packPsr, Psr.withControlAndT, unpackPsr, BitVec.getLsbD_append]
  interval_cases i <;> simp

/-- A word that is read as a status word and written back loses its reserved bits. -/
theorem packPsr_unpackPsr (w : Word) : packPsr (unpackPsr w) = w &&& 0xF80000FF#32 := by
  have hall : unpackPsr w = (zeroPsr.withFlagsOf (unpackPsr w)).withControlAndT (unpackPsr w) := rfl
  rw [hall, packPsr_withControlAndT, packPsr_withFlagsOf, underMask_underMask,
    show packPsr zeroPsr = 0 by decide]
  simp [underMask]

/-- Settles O40. -/
theorem statusWordImage : Obligations.StatusWordImage := by
  refine ⟨fun p => ?_, unpackPsr_packPsr, packPsr_unpackPsr⟩
  obtain ⟨hn, hz, hc, hv, hq, hi, hf, ht⟩ := flags_packPsr p
  exact ⟨hn, hz, hc, hv, hq, reserved_packPsr p, hi, hf, ht, mode_packPsr p⟩

/-! ## MRS -/

/-- A write of a destination register is the answer of the statements (R176). -/
theorem writeReg_eq_writeAnswer (s : State) (rd : Reg) (v : Word) : s.writeReg rd v = s.writeAnswer rd v := rfl

/-- Settles O41: the reserved bits of any status word are 0, since the word survives the way through the fields. -/
theorem mrsResults : Obligations.MrsResults := by
  intro s c rd hc
  refine ⟨exec_eq_next_of_pass hc rfl rfl, exec_eq_next_of_pass hc rfl ?_, fun p => ?_⟩
  · rw [writeReg_eq_writeAnswer, State.mrsValue]
    cases s.spsr <;> rfl
  · rw [← unpackPsr_packPsr p, packPsr_unpackPsr, BitVec.and_assoc]
    exact BitVec.and_zero

/-! ## MSR -/

/-- The flags field of MSR, written or not. -/
theorem packPsr_flags (p : Psr) (x : Word) (f : Bool) :
    packPsr (if f then p.withFlagsOf (unpackPsr x) else p) = underMask (packPsr p) x (if f then 0xF8000000#32 else 0) := by
  cases f
  · exact (underMask_zero _ x).symm
  · exact packPsr_withFlagsOf p x

/-- MSR in a state where its control field does nothing (R377). -/
theorem msrCpsr_of_no_control {s : State} {fields : PsrFields} (p : Psr)
    (h : (fields.c && decide (s.cpsr.m ≠ modeUsr)) = false) :
    s.msrCpsr fields p = s.setCpsr (if fields.f then s.cpsr.withFlagsOf p else s.cpsr) :=
  if_neg (by simpa [isPrivileged] using h)

theorem msrCpsr_of_control {s : State} {fields : PsrFields} (p : Psr)
    (h : (fields.c && decide (s.cpsr.m ≠ modeUsr)) = true) :
    s.msrCpsr fields p =
      ((s.switchMode p.m).setCpsr
        ((if fields.f then s.cpsr.withFlagsOf p else s.cpsr).withControlOf p)).setPc (s.instrAddr + 4) :=
  if_pos (by simpa [isPrivileged] using h)

theorem setPc_setCpsr_eq (s : State) (p : Psr) (v : Word) :
    (s.setCpsr p).setPc v = { s with cpsr := p, regs := s.regs.set 15 v, flush := true } := rfl

/-- Settles O42: the new mode is the low field of the new word. -/
theorem msrCpsrResults : Obligations.MsrCpsrResults := by
  intro s c fields src hc control mask new
  refine ⟨_, exec_eq_next_of_pass hc rfl rfl, ?_⟩
  have hmasked : underMask (packPsr s.cpsr) (s.msrOperand src) mask = new := rfl
  cases hcontrol : control
  case false =>
    have hmask : mask = if fields.f then 0xF8000000#32 else 0 := by
      simp only [mask, hcontrol, Bool.false_eq_true, if_false]
      exact BitVec.or_zero
    rw [msrCpsr_of_no_control _ hcontrol, ← hmasked, hmask]
    exact ⟨packPsr_flags _ _ _, fun _ => rfl, fun h => absurd h Bool.false_ne_true⟩
  case true =>
    have hmask : mask = (if fields.f then 0xF8000000#32 else 0) ||| 0x000000DF#32 := by
      simp only [mask, hcontrol, if_true]
    have hnew : packPsr ((if fields.f then s.cpsr.withFlagsOf (unpackPsr (s.msrOperand src)) else s.cpsr).withControlOf
        (unpackPsr (s.msrOperand src))) = new := by
      rw [packPsr_withControlOf, packPsr_flags, underMask_underMask, ← hmask, hmasked]
    have hmode : new.extractLsb' 0 5 = (unpackPsr (s.msrOperand src)).m := by
      rw [← hnew, mode_packPsr]
      rfl
    rw [msrCpsr_of_control _ hcontrol, hmode]
    exact ⟨hnew, fun h => absurd h.symm Bool.false_ne_true, fun _ => setPc_setCpsr_eq _ _ _⟩

theorem bankOf_ne_usr_of_spsr {s : State} {p : Psr} (h : s.spsr = some p) : bankOf s.cpsr.m ≠ .usr := by
  intro husr
  rw [State.spsr, husr] at h
  cases h

/-- Settles O43. -/
theorem msrSpsrResults : Obligations.MsrSpsrResults := by
  intro s c fields src hc mask
  refine ⟨fun hnone => exec_eq_next_of_pass hc rfl (by simp only [State.msrSpsr, hnone]), fun p hp => ?_⟩
  refine ⟨_, exec_eq_next_of_pass hc rfl (by simp only [State.msrSpsr, hp]; rfl), ?_, ?_⟩
  · rw [State.spsr, setSpsrOf_cpsr, spsrOf_setSpsrOf (bankOf_ne_usr_of_spsr hp), if_pos rfl]
  · show _ = underMask (packPsr p) (s.msrOperand src) mask
    cases hcontrol : fields.c
    · simp only [mask, hcontrol, Bool.false_eq_true, if_false]
      rw [packPsr_flags]
      exact congrArg _ BitVec.or_zero.symm
    · simp only [mask, hcontrol, if_true]
      rw [packPsr_withControlAndT, packPsr_flags, underMask_underMask]

end Sys2Proof.Machine
end

section
/-! Banks and the mode switch (R22 to R25, R371), cell by cell: what `saveBank` puts into the cells and what `loadBank`
takes out of them, and from these the view that each mode has of its registers. -/

namespace Sys2Proof.Machine

/-! ## Cells -/

theorem shadow_window (s : State) {n : Reg} (hlo : 8 ≤ n.val) (hhi : n.val ≤ 14) :
    s.window.toArray.getD (n.val - 8) 0 = s.reg n := by
  obtain ⟨n, hn⟩ := n
  simp only at hlo hhi ⊢
  interval_cases n <;> rfl

theorem shadow_saveCommon (s : State) {n : Reg} (hlo : 8 ≤ n.val) (hhi : n.val ≤ 14) :
    s.saveCommon.toArray.getD (n.val - 8) 0 = if n.val ≤ 12 then s.reg n else s.shadow .usr n := by
  obtain ⟨n, hn⟩ := n
  simp only at hlo hhi ⊢
  interval_cases n <;> simp [State.saveCommon, State.shadow]

theorem shadow_topWindow (s : State) {n : Reg} (hlo : 13 ≤ n.val) (hhi : n.val ≤ 14) :
    s.topWindow.toArray.getD (n.val - 13) 0 = s.reg n := by
  obtain ⟨n, hn⟩ := n
  simp only at hlo hhi ⊢
  interval_cases n <;> rfl

theorem bankHolds_savedInto (b : Bank) {n : Reg} (hlo : 8 ≤ n.val) (hhi : n.val ≤ 14) :
    bankHolds (savedInto b n) n = true := by
  cases b <;> simp only [savedInto, bankHolds] <;> split_ifs <;> simp_all <;> omega

/-- Step (a) of R371: each banked register goes into its one cell. -/
theorem shadow_saveBank (s : State) (ob b : Bank) {n : Reg} (hb : bankHolds b n = true) :
    (s.saveBank ob).shadow b n = if b = savedInto ob n then s.reg n else s.shadow b n := by
  obtain ⟨hlo, hhi⟩ : 8 ≤ n.val ∧ n.val ≤ 14 := by
    cases b <;> simp [bankHolds] at hb <;> omega
  have htop : b ≠ .usr → b ≠ .fiq → 13 ≤ n.val := by
    cases b <;> simp [bankHolds] at hb ⊢ <;> omega
  cases b
  case usr | fiq =>
    by_cases hcommon : n.val ≤ 12 <;> cases ob <;>
      simp only [State.saveBank, State.shadow, savedInto, shadow_window s hlo hhi, shadow_saveCommon s hlo hhi] <;>
      simp [hcommon]
  all_goals
    have h13 : 13 ≤ n.val := htop (by decide) (by decide)
    cases ob <;>
      simp only [State.saveBank, State.shadow, savedInto, shadow_topWindow s h13 hhi] <;>
      simp [Nat.not_le.mpr h13]

theorem reg_setCommon (s : State) (v : Vector Word 7) (n : Reg) :
    (s.setCommon v).reg n = if 8 ≤ n.val ∧ n.val ≤ 12 then v.toArray.getD (n.val - 8) 0 else s.reg n := by
  fin_cases n <;> simp [State.setCommon]

theorem reg_setTop (s : State) (a b : Word) (n : Reg) :
    (s.setTop a b).reg n = if n = 13 then a else if n = 14 then b else s.reg n := by
  fin_cases n <;> simp [State.setTop]

/-- Step (b) of R371: each banked register comes out of its one cell. -/
theorem reg_loadBank (s : State) (b : Bank) (n : Reg) :
    (s.loadBank b).reg n = if 8 ≤ n.val ∧ n.val ≤ 14 then s.shadow (savedInto b n) n else s.reg n := by
  fin_cases n <;> cases b <;> simp [State.loadBank, reg_setTop, reg_setCommon, savedInto, State.shadow]

theorem shadow_loadBank (s : State) (nb b : Bank) (n : Reg) : (s.loadBank nb).shadow b n = s.shadow b n := by
  cases nb <;> cases b <;> rfl

/-! ## The mode switch (R371) -/

theorem moveBanks_of_ne {s : State} {ob nb : Bank} (h : ob ≠ nb) : s.moveBanks ob nb = (s.saveBank ob).loadBank nb :=
  if_neg h

theorem switchMode_of_eq {s : State} {m : BitVec 5} (h : bankOf s.cpsr.m = bankOf m) :
    s.switchMode m = { s with cpsr := { s.cpsr with m := m } } := by
  simp only [State.switchMode, State.moveBanks, if_pos h]
  rfl

/-- A register that stands in the same cell in both banks stays live; any other comes out of its cell. -/
theorem reg_switchMode_of_ne {s : State} {m : BitVec 5} (h : bankOf s.cpsr.m ≠ bankOf m) {n : Reg} (hlo : 8 ≤ n.val)
    (hhi : n.val ≤ 14) :
    (s.switchMode m).reg n =
      if savedInto (bankOf s.cpsr.m) n = savedInto (bankOf m) n then s.reg n else s.shadow (savedInto (bankOf m) n) n := by
  have hmove : (s.switchMode m).reg n = (s.moveBanks (bankOf s.cpsr.m) (bankOf m)).reg n := rfl
  rw [hmove, moveBanks_of_ne h, reg_loadBank, if_pos ⟨hlo, hhi⟩, shadow_saveBank _ _ _ (bankHolds_savedInto _ hlo hhi)]
  simp only [eq_comm]

theorem reg_switchMode_of_unbanked (s : State) (m : BitVec 5) {n : Reg} (hn : n.val < 8 ∨ n.val = 15) :
    (s.switchMode m).reg n = s.reg n := by
  have hmove : (s.switchMode m).reg n = (s.moveBanks (bankOf s.cpsr.m) (bankOf m)).reg n := rfl
  rw [hmove, State.moveBanks]
  split
  · rfl
  · rw [reg_loadBank, if_neg (by omega), reg_saveBank]

theorem shadow_switchMode_of_ne {s : State} {m : BitVec 5} (h : bankOf s.cpsr.m ≠ bankOf m) {b : Bank} {n : Reg}
    (hb : bankHolds b n = true) :
    (s.switchMode m).shadow b n = if b = savedInto (bankOf s.cpsr.m) n then s.reg n else s.shadow b n := by
  have hmove : (s.switchMode m).shadow b n = (s.moveBanks (bankOf s.cpsr.m) (bankOf m)).shadow b n := by
    cases b <;> rfl
  rw [hmove, moveBanks_of_ne h, shadow_loadBank, shadow_saveBank _ _ _ hb]

theorem saveBank_frame (s : State) (b : Bank) :
    ∃ usr fiq irq svc abt und, s.saveBank b =
      { s with bankUsr := usr, bankFiq := fiq, bankIrq := irq, bankSvc := svc, bankAbt := abt, bankUnd := und } := by
  cases b <;> exact ⟨_, _, _, _, _, _, rfl⟩

theorem loadBank_frame (s : State) (b : Bank) : s.loadBank b = { s with regs := (s.loadBank b).regs } := by
  cases b <;> rfl

theorem moveBanks_frame (s : State) (ob nb : Bank) :
    ∃ regs usr fiq irq svc abt und, s.moveBanks ob nb =
      { s with regs := regs, bankUsr := usr, bankFiq := fiq, bankIrq := irq, bankSvc := svc, bankAbt := abt
               bankUnd := und } := by
  unfold State.moveBanks
  split
  · exact ⟨_, _, _, _, _, _, _, rfl⟩
  · obtain ⟨usr, fiq, irq, svc, abt, und, hsave⟩ := saveBank_frame s ob
    rw [loadBank_frame, hsave]
    exact ⟨_, _, _, _, _, _, _, rfl⟩

/-- What the mode switch can write at all. -/
theorem switchMode_frame (s : State) (m : BitVec 5) :
    s.switchMode m =
      { s with
        cpsr := { s.cpsr with m := m }, regs := (s.switchMode m).regs, bankUsr := (s.switchMode m).bankUsr
        bankFiq := (s.switchMode m).bankFiq, bankIrq := (s.switchMode m).bankIrq
        bankSvc := (s.switchMode m).bankSvc, bankAbt := (s.switchMode m).bankAbt
        bankUnd := (s.switchMode m).bankUnd } := by
  obtain ⟨regs, usr, fiq, irq, svc, abt, und, hmove⟩ := moveBanks_frame s (bankOf s.cpsr.m) (bankOf m)
  simp only [State.switchMode, hmove]
  rfl

theorem bankOf_of_not_banked {m : BitVec 5} (h : m ∉ [0b10001#5, 0b10010#5, 0b10011#5, 0b10111#5, 0b11011#5]) :
    bankOf m = .usr := by
  revert m; decide

/-- Settles O44. -/
theorem switchModeResult : Obligations.SwitchModeResult := by
  refine ⟨by decide, fun m => bankOf_of_not_banked, fun s => ?spsrs, fun s m => ?switch⟩
  case spsrs =>
    refine ⟨?_, ?_, ?_, ?_, ?_, fun h => by rw [State.spsr, bankOf_of_not_banked h]; rfl⟩ <;>
      exact fun h => by rw [State.spsr, h]; rfl
  case switch =>
    refine ⟨switchMode_frame s m, switchMode_of_eq, fun n => reg_switchMode_of_unbanked s m,
      fun hne => ⟨?_, ?_, ?_⟩⟩
    · intro n hlo hhi
      rw [shadow_switchMode_of_ne hne (bankHolds_savedInto _ hlo hhi), if_pos rfl]
    · exact fun n hlo hhi => reg_switchMode_of_ne hne hlo hhi
    · intro b n hb hcell
      rw [shadow_switchMode_of_ne hne hb, if_neg hcell]

/-! ## Views (R23 to R25, R372) -/

/-- The home of a banked register is the cell that the mode switch saves it into. -/
theorem homeOf_of_banked (m : BitVec 5) {n : Reg} (hlo : 8 ≤ n.val) (hhi : n.val ≤ 14) :
    homeOf m n = some (savedInto (bankOf m) n) := by
  unfold homeOf savedInto
  rw [if_neg (by omega)]
  by_cases hcommon : n.val ≤ 12
  · by_cases hfiq : bankOf m = .fiq <;> simp [hcommon, hfiq, show n.val < 13 by omega]
  · simp [hcommon, show ¬ n.val < 13 by omega]

theorem homeOf_of_unbanked (m : BitVec 5) {n : Reg} (hn : n.val < 8 ∨ n.val = 15) : homeOf m n = none := if_pos hn

/-- A banked register as a mode sees it (R25). -/
theorem regMode_of_banked (s : State) (m : BitVec 5) {n : Reg} (hlo : 8 ≤ n.val) (hhi : n.val ≤ 14) :
    s.regMode m n =
      if savedInto (bankOf s.cpsr.m) n = savedInto (bankOf m) n then s.reg n else s.shadow (savedInto (bankOf m) n) n := by
  simp only [State.regMode, homeOf_of_banked _ hlo hhi, Option.some.injEq]

theorem regMode_of_unbanked (s : State) (m : BitVec 5) {n : Reg} (hn : n.val < 8 ∨ n.val = 15) :
    s.regMode m n = s.reg n := by
  simp only [State.regMode, homeOf_of_unbanked m hn]

/-- The view of `m'`: what was live goes into its cell, and is read there unless the switch made that cell live. -/
theorem regMode_switchMode (s : State) (m m' : BitVec 5) (n : Reg) :
    (s.switchMode m).regMode m' n = s.regMode m' n := by
  by_cases hn : n.val < 8 ∨ n.val = 15
  · rw [regMode_of_unbanked _ _ hn, regMode_of_unbanked _ _ hn, reg_switchMode_of_unbanked s m hn]
  · obtain ⟨hlo, hhi⟩ : 8 ≤ n.val ∧ n.val ≤ 14 := by omega
    have hmode : (s.switchMode m).cpsr.m = m := by simp
    rw [regMode_of_banked _ _ hlo hhi, regMode_of_banked _ _ hlo hhi, hmode]
    by_cases hbank : bankOf s.cpsr.m = bankOf m
    · rw [switchMode_of_eq hbank, hbank]
      cases savedInto (bankOf m') n <;> rfl
    · rw [reg_switchMode_of_ne hbank hlo hhi, shadow_switchMode_of_ne hbank (bankHolds_savedInto _ hlo hhi)]
      by_cases hlive : savedInto (bankOf m) n = savedInto (bankOf m') n
      · simp [hlive]
      · by_cases hold : savedInto (bankOf s.cpsr.m) n = savedInto (bankOf m') n
        · simp [hlive, hold]
        · simp [hlive, hold, Ne.symm hold]

/-- Settles O45. -/
theorem switchModeKeepsEveryView : Obligations.SwitchModeKeepsEveryView := by
  refine ⟨fun m n => ?home, fun s m n => ?view, fun s m m' n _ => regMode_switchMode s m m' n⟩
  case home => revert m n; decide
  case view =>
    unfold State.regMode
    cases hhome : homeOf m n with
    | none => exact ⟨fun _ => rfl, fun b hb => by cases hb⟩
    | some b =>
      refine ⟨fun heq => if_pos heq.symm, fun b' hb' hne => ?_⟩
      obtain rfl : b = b' := Option.some.inj hb'
      exact if_neg hne

/-! ## Breakpoints and vectors (R401, R498, R521) -/

/-- Settles O48: A + 4 is 4 less than the fetch address in ARM state and the fetch address in Thumb state. -/
theorem breakpointsAndVectors : Obligations.BreakpointsAndVectors := by
  refine ⟨fun s c imm16 imm8 => ⟨fun harm hc => exec_eq_next_of_pass hc rfl ?arm, fun hthumb => ?thumb⟩, ?table⟩
  case arm =>
    refine congrArg (s.enter .prefetchAbort) ?_
    rw [instrAddr_eq, harm]
    simp only [Bool.false_eq_true, if_false]
    bv_omega
  case thumb =>
    refine congrArg Host.Outcome.next (congrArg (s.enter .prefetchAbort) ?_)
    rw [instrAddr_eq, hthumb]
    exact BitVec.sub_add_cancel _ _
  case table => intro e; cases e <;> decide

end Sys2Proof.Machine
end

section
/-! Multiplies (R250 to R264) and saturating arithmetic (R360 to R366): each is one write of a register or of a pair,
then flags; the products and the accumulators are exact integers modulo the width of the destination. -/

namespace Sys2Proof.Machine

/-! ## Writes of registers -/

@[simp] theorem writeReg_flush (s : State) (r : Reg) (v : Word) :
    (s.writeReg r v).flush = (s.flush || decide (r = 15)) := by
  unfold State.writeReg
  split <;> simp [*]

theorem sameOther_writeReg (s : State) (r : Reg) (v : Word) : s.sameOther (s.writeReg r v) := by
  simp [State.sameOther, State.sameBanks, State.sameSpsrs, State.sameRest]

theorem writesOne_writeReg (s : State) (rd : Reg) (v : Word) : writesOne s (s.writeReg rd v) rd v :=
  ⟨by simp, fun r hr => by simp [Ne.symm hr], by simp, by simp, by simp, sameOther_writeReg s rd v⟩

/-- CPSR, and with it the flags that a multiply leaves open, are none of what `writesOne` and `writesPair` speak of. -/
theorem writesOne.setCpsr {s t : State} {rd : Reg} {v : Word} (h : writesOne s t rd v) (p : Psr) :
    writesOne s (t.setCpsr p) rd v := h

theorem writesPair.setCpsr {s t : State} {lo hi : Reg} {v : BitVec 64} (h : writesPair s t lo hi v) (p : Psr) :
    writesPair s (t.setCpsr p) lo hi v := h

theorem reg_multiplyCarry (s : State) (long : Bool) (r : Reg) : (s.multiplyCarry long).reg r = s.reg r := by
  simp [State.reg]

theorem sameOther_multiplyCarry {s t : State} (h : s.sameOther t) (long : Bool) :
    s.sameOther (t.multiplyCarry long) := by
  simpa [State.sameOther, State.sameBanks, State.sameSpsrs, State.sameRest] using h

theorem writesOne.multiplyCarry {s t : State} {rd : Reg} {v : Word} (h : writesOne s t rd v) (long : Bool) :
    writesOne s (t.multiplyCarry long) rd v := by
  obtain ⟨hrd, hother, hflush, hmem, hbus, hsame⟩ := h
  exact ⟨by rw [reg_multiplyCarry, hrd], fun r hr => by rw [reg_multiplyCarry, hother r hr], by simp [hflush],
    by simp [hmem], by simp [hbus], sameOther_multiplyCarry hsame long⟩

theorem writesPair.multiplyCarry {s t : State} {lo hi : Reg} {v : BitVec 64} (h : writesPair s t lo hi v)
    (long : Bool) : writesPair s (t.multiplyCarry long) lo hi v := by
  obtain ⟨hhi, hlo, hother, hflush, hmem, hbus, hsame⟩ := h
  exact ⟨by rw [reg_multiplyCarry, hhi], fun hne => by rw [reg_multiplyCarry, hlo hne],
    fun r hr hr' => by rw [reg_multiplyCarry, hother r hr hr'], by simp [hflush], by simp [hmem], by simp [hbus],
    sameOther_multiplyCarry hsame long⟩

theorem writesPair_writePair (s : State) (lo hi : Reg) (v : BitVec 64) : writesPair s (s.writePair lo hi v) lo hi v := by
  unfold State.writePair
  refine ⟨by simp, fun hne => by simp [Ne.symm hne], fun r hlo hhi => by simp [Ne.symm hlo, Ne.symm hhi], by simp,
    by simp, by simp, ?_⟩
  simp [State.sameOther, State.sameBanks, State.sameSpsrs, State.sameRest]

/-! ## The flags of a multiply (R263) -/

/-- What the flags that the configuration may leave open are, and that the other fields stay. -/
theorem cpsr_multiplyCarry (s : State) (long : Bool) :
    ∃ c v, (s.multiplyCarry long).cpsr = { s.cpsr with c := c, v := v } ∧
      (s.cfg.multiplyFlags = .unchanged → c = s.cpsr.c) ∧
      (long = false ∨ s.cfg.multiplyFlags = .unchanged → v = s.cpsr.v) := by
  unfold State.multiplyCarry
  cases hrule : s.cfg.multiplyFlags
  case unchanged => exact ⟨_, _, rfl, fun _ => rfl, fun _ => rfl⟩
  case anyValue => exact ⟨_, _, rfl, nofun, fun h => if_neg (by simpa using h)⟩

/-- The flags after S = 1: N and Z of the result, then the open ones. -/
theorem multiplyFlags_of_setNZ {s t : State} (hcpsr : t.cpsr = s.cpsr) (hcfg : t.cfg = s.cfg) (long n z : Bool) :
    multiplyFlags s ((t.setCpsr { t.cpsr with n := n, z := z }).multiplyCarry long) true long n z := by
  rw [hcpsr]
  obtain ⟨c, v, hanswer, hc, hv⟩ := cpsr_multiplyCarry (t.setCpsr { s.cpsr with n := n, z := z }) long
  rw [setCpsr_cfg, setCpsr_cpsr, hcfg] at hc hv
  rw [multiplyFlags, hanswer]
  exact ⟨rfl, rfl, fun h => hc (by simpa using h), fun h => hv (by simpa using h), rfl, rfl, rfl, rfl, rfl⟩

theorem multiplyFlags_of_cpsr_eq {s t : State} (hcpsr : t.cpsr = s.cpsr) (long n z : Bool) :
    multiplyFlags s t false long n z := by
  rw [multiplyFlags, hcpsr]
  exact ⟨rfl, rfl, fun _ => rfl, fun _ => rfl, rfl, rfl, rfl, rfl, rfl⟩

theorem multiplyResult_spec (s : State) (sb : Bool) (rd : Reg) (r : Word) :
    writesOne s (s.multiplyResult sb rd r) rd r ∧
      multiplyFlags s (s.multiplyResult sb rd r) sb false r.msb (decide (r = 0)) := by
  cases sb
  case false => exact ⟨writesOne_writeReg s rd r, multiplyFlags_of_cpsr_eq (writeReg_cpsr s rd r) _ _ _⟩
  case true =>
    refine ⟨((writesOne_writeReg s rd r).setCpsr _).multiplyCarry false, ?_⟩
    rw [← beq_eq_decide]
    exact multiplyFlags_of_setNZ (writeReg_cpsr s rd r) (writeReg_cfg s rd r) _ _ _

theorem multiplyLongResult_spec (s : State) (sb : Bool) (lo hi : Reg) (r : BitVec 64) :
    writesPair s (s.multiplyLongResult sb lo hi r) lo hi r ∧
      multiplyFlags s (s.multiplyLongResult sb lo hi r) sb true r.msb (decide (r = 0)) := by
  have hcpsr : (s.writePair lo hi r).cpsr = s.cpsr := by simp [State.writePair]
  have hcfg : (s.writePair lo hi r).cfg = s.cfg := by simp [State.writePair]
  cases sb
  case false => exact ⟨writesPair_writePair s lo hi r, multiplyFlags_of_cpsr_eq hcpsr _ _ _⟩
  case true =>
    refine ⟨((writesPair_writePair s lo hi r).setCpsr _).multiplyCarry true, ?_⟩
    rw [← beq_eq_decide]
    exact multiplyFlags_of_setNZ hcpsr hcfg _ _ _

/-! ## The products -/

theorem ofNat_toNat_mul_toNat (a b : Word) : BitVec.ofNat 32 (a.toNat * b.toNat) = a * b := by
  apply BitVec.eq_of_toNat_eq
  simp

theorem ofNat_toNat_mul_toNat_add (a b d : Word) :
    BitVec.ofNat 32 (a.toNat * b.toNat + d.toNat) = a * b + d := by
  rw [BitVec.ofNat_add, ofNat_toNat_mul_toNat, BitVec.ofNat_toNat, BitVec.setWidth_eq]

/-- The accumulator pair as one exact number. -/
theorem accumulator_eq (s : State) (lo hi : Reg) :
    s.accumulator lo hi = BitVec.ofNat 64 ((s.rop 8 hi).toNat * 2 ^ 32 + (s.rop 8 lo).toNat) := by
  have hlo := (s.rop 8 lo).isLt
  have hhi := (s.rop 8 hi).isLt
  apply BitVec.eq_of_toNat_eq
  rw [State.accumulator, BitVec.toNat_append, ← Nat.shiftLeft_add_eq_or_of_lt hlo, Nat.shiftLeft_eq, BitVec.toNat_ofNat]
  omega

/-- Settles O25. -/
theorem multiplyResults : Obligations.MultiplyResults := by
  intro s c sb rd rm rs rn hc p
  refine ⟨⟨_, exec_eq_next_of_pass hc rfl rfl, ?_⟩, ⟨_, exec_eq_next_of_pass hc rfl rfl, ?_⟩⟩
  · rw [ofNat_toNat_mul_toNat]
    exact multiplyResult_spec s sb rd _
  · rw [ofNat_toNat_mul_toNat_add]
    exact multiplyResult_spec s sb rd _

/-- Settles O26: the sum with the accumulator is taken modulo 2^64, as the statement takes it. -/
theorem longMultiplyResults : Obligations.LongMultiplyResults := by
  intro s c sb rdLo rdHi rm rs hc acc u i answers
  have hacc : s.accumulator rdLo rdHi = BitVec.ofNat 64 acc := accumulator_eq s rdLo rdHi
  refine ⟨⟨_, exec_eq_next_of_pass hc rfl rfl, multiplyLongResult_spec s sb rdLo rdHi _⟩,
    ⟨_, exec_eq_next_of_pass hc rfl rfl, ?umlal⟩,
    ⟨_, exec_eq_next_of_pass hc rfl rfl, multiplyLongResult_spec s sb rdLo rdHi _⟩,
    ⟨_, exec_eq_next_of_pass hc rfl rfl, ?smlal⟩⟩
  case umlal =>
    rw [BitVec.ofNat_add, ← hacc]
    exact multiplyLongResult_spec s sb rdLo rdHi _
  case smlal =>
    rw [BitVec.ofInt_add, BitVec.ofInt_natCast, ← hacc]
    exact multiplyLongResult_spec s sb rdLo rdHi _

/-! ## Halfword multiplies (R258 to R262) -/

theorem halfOf_eq (v : Word) (sel : HalfSel) :
    (match sel with | .bottom => v.extractLsb' 0 16 | .top => v.extractLsb' 16 16 : BitVec 16) = halfOf v sel := by
  cases sel <;> rfl

theorem overflowsSigned32_eq (v : Int) : overflowsSigned32 v = !fits32 v := by
  rw [Bool.eq_iff_iff, not_fits32_iff]
  simp [overflowsSigned32]

theorem accumulatesTo_accumulateQ (s : State) (rd rn : Reg) (p : Int) :
    accumulatesTo s (s.accumulateQ rd rn p) rd (p + (s.rop 8 rn).toInt) := by
  refine ⟨(writesOne_writeReg s rd _).setCpsr _, ?_⟩
  rw [State.accumulateQ, setCpsr_cpsr, writeReg_cpsr, overflowsSigned32_eq]
  rfl

/-- Settles O27. -/
theorem halfMultiplyResults : Obligations.HalfMultiplyResults := by
  intro s c x y rd rm rs rn hc half xy wy
  have hhalf (v : Word) (sel : HalfSel) : half v sel = (halfOf v sel).toInt := congrArg BitVec.toInt (halfOf_eq v sel)
  have hxy : xy = halfProduct (halfOf (s.rop 8 rm) x) (halfOf (s.rop 8 rs) y) := by simp only [xy, hhalf]; rfl
  have hwy : wy = wideProduct (s.rop 8 rm) (halfOf (s.rop 8 rs) y) := by simp only [wy, hhalf]; rfl
  rw [hxy, hwy]
  refine ⟨⟨_, exec_eq_next_of_pass hc rfl rfl, accumulatesTo_accumulateQ s rd rn _⟩,
    ⟨_, exec_eq_next_of_pass hc rfl rfl, accumulatesTo_accumulateQ s rd rn _⟩,
    ⟨_, exec_eq_next_of_pass hc rfl rfl, writesOne_writeReg s rd _, writeReg_cpsr s rd _⟩,
    ⟨_, exec_eq_next_of_pass hc rfl rfl, ?pair⟩,
    ⟨_, exec_eq_next_of_pass hc rfl rfl, writesOne_writeReg s rd _, writeReg_cpsr s rd _⟩⟩
  have hacc : BitVec.ofInt 64 ((s.rop 8 rd).toNat * 2 ^ 32 + (s.rop 8 rn).toNat) = s.accumulator rn rd := by
    rw [accumulator_eq, ← BitVec.ofInt_natCast]
    push_cast
    rfl
  rw [BitVec.ofInt_add, hacc]
  exact ⟨writesPair_writePair s rn rd _, by simp [State.writePair]⟩

/-! ## Saturating arithmetic (R361 to R365) -/

theorem saturatesTo_saturate (s : State) (rd : Reg) (v : Int) (clamped : Bool) :
    saturatesTo s (s.saturate rd v clamped) rd v clamped := by
  simp only [State.saturate, signedSat32_eq]
  refine ⟨(writesOne_writeReg s rd _).setCpsr _, ?_⟩
  rw [setCpsr_cpsr, writeReg_cpsr, Psr.orQ, ← Bool.or_assoc]

theorem doubled_eq (v : Word) : (doubled v).1.toInt = doubleClamped v ∧ (doubled v).2 = !fits32 (2 * v.toInt) := by
  rw [doubled, signedSat32_eq]
  exact ⟨toInt_ofInt_clamp32 _, rfl⟩

/-- Settles O29. -/
theorem saturatingResults : Obligations.SaturatingResults := by
  intro s c rd rm rn hc a b d
  obtain ⟨hd, hclamped⟩ := doubled_eq (s.rop 8 rn)
  replace hd : (doubled (s.rop 8 rn)).1.toInt = d := hd
  rw [← hd, ← hclamped]
  exact ⟨⟨_, exec_eq_next_of_pass hc rfl rfl, saturatesTo_saturate s rd _ _⟩,
    ⟨_, exec_eq_next_of_pass hc rfl rfl, saturatesTo_saturate s rd _ _⟩,
    ⟨_, exec_eq_next_of_pass hc rfl rfl, saturatesTo_saturate s rd _ _⟩,
    ⟨_, exec_eq_next_of_pass hc rfl rfl, saturatesTo_saturate s rd _ _⟩⟩

end Sys2Proof.Machine
end

section
/-! Branches of both sets (R390 to R393, R455, R456, R495 to R511), and the Thumb data-processing formats as ARM
instructions (R420 to R448). -/

namespace Sys2Proof.Machine

/-! ## Offsets of branches -/

/-- A sign-extended field scaled by a power of 2 is the exact multiple of its signed value. -/
theorem sext_shiftLeft {n k : Nat} (v : BitVec n) {m : Int} (hm : BitVec.ofInt 32 m = BitVec.twoPow 32 k) :
    sext v <<< k = BitVec.ofInt 32 (m * v.toInt) := by
  have hsext : sext v = BitVec.ofInt 32 v.toInt := rfl
  rw [BitVec.shiftLeft_eq_mul_twoPow, BitVec.ofInt_mul, hm, hsext, BitVec.mul_comm]

theorem zext_shiftLeft_one {n : Nat} (v : BitVec n) : zext v <<< 1 = BitVec.ofNat 32 (2 * v.toNat) := by
  apply BitVec.eq_of_toNat_eq
  simp [zext, Nat.shiftLeft_eq, Nat.mul_comm]

theorem branchTarget_eq (s : State) (imm24 : BitVec 24) :
    s.branchTarget imm24 = s.instrAddr + 8 + BitVec.ofInt 32 (4 * imm24.toInt) :=
  congrArg (s.pcRead 8 + ·) (sext_shiftLeft imm24 (by decide))

theorem thumbTarget_eq (s : State) {n : Nat} (offset : BitVec n) :
    s.thumbTarget (sext offset) = s.instrAddr + 4 + BitVec.ofInt 32 (2 * offset.toInt) :=
  congrArg (s.pcRead 4 + ·) (sext_shiftLeft offset (by decide))

/-- Settles O49. -/
theorem branchResults : Obligations.BranchResults := by
  intro s c imm24 off11 rm
  refine ⟨fun hc => ⟨exec_eq_next_of_pass hc rfl ?_, exec_eq_next_of_pass hc rfl ?_,
    exec_eq_next_of_pass hc rfl rfl⟩,
    congrArg (Host.Outcome.next ∘ s.branchAnswer) (thumbTarget_eq s off11), rfl⟩
  · rw [branchTarget_eq]; rfl
  · rw [branchTarget_eq]; rfl

/-- The halfword in `slot[0]` is a low half (R510). -/
theorem nextIsBlLow_eq (s : State) : s.nextIsBlLow = decide ((s.slot0.toNat / 2 ^ 11) % 2 ^ 5 = 0b11111) := by
  rw [State.nextIsBlLow, beq_eq_decide, decide_eq_decide, ← BitVec.toNat_inj, BitVec.extractLsb'_toNat,
    Nat.shiftRight_eq_div_pow]
  rfl

/-- Settles O50. -/
theorem decidedBranchResults : Obligations.DecidedBranchResults := by
  intro s c rm soff8 off11
  refine ⟨fun hc => exec_eq_next_of_pass hc rfl rfl, rfl, ?cond, ?high, ?low⟩
  case cond => rw [← thumbTarget_eq]; rfl
  case high =>
    intro v u
    have hv : s.pcRead 4 + (sext off11 <<< 12) = v := congrArg (s.pcRead 4 + ·) (sext_shiftLeft off11 (by decide))
    have hexec : exec (.tBlHigh off11) s =
        .next (if s.nextIsBlLow then s.setReg 14 (s.pcRead 4 + (sext off11 <<< 12))
          else (s.setReg 14 (s.pcRead 4 + (sext off11 <<< 12))).setPc (s.pcRead 4 + (sext off11 <<< 12))) := rfl
    rw [hexec, hv, nextIsBlLow_eq]
    simp only [decide_eq_true_eq]
    rfl
  case low => rw [← zext_shiftLeft_one]; rfl

/-! ## Thumb operands as ARM operands (R420) -/

section
variable (s : State) (rd r : LowReg)

theorem rop_lowReg (k : Word) : s.rop k (lowReg r) = s.low r := rop_of_ne_pc (lowReg_ne_pc r) k

theorem operand1_lowReg (op2 : Operand2) : s.operand1 (lowReg r) op2 = s.low r := rop_lowReg s r _

/-- A low register, unshifted. -/
theorem operand2_lowReg : s.operand2 (.shiftImm .lsl 0 (lowReg r)) = ⟨s.low r, s.cpsr.c⟩ :=
  congrArg (fun v => (⟨v, s.cpsr.c⟩ : Shifted)) (rop_lowReg s r _)

theorem operand2_shiftImm_lowReg (type : ShiftType) (imm5 : BitVec 5) :
    s.operand2 (.shiftImm type imm5 (lowReg r)) = shiftImmediate type (s.low r) imm5.toNat s.cpsr.c :=
  congrArg (shiftImmediate type · imm5.toNat s.cpsr.c) (rop_lowReg s r _)

theorem operand2_shiftReg_lowReg (type : ShiftType) (amount : LowReg) :
    s.operand2 (.shiftReg type (lowReg amount) (lowReg r)) =
      shiftRegister type (s.low r) ((s.low amount).extractLsb' 0 8).toNat s.cpsr.c := by
  simp only [State.operand2, rop_lowReg]

/-- An unrotated immediate. -/
theorem operand2_imm (imm8 : BitVec 8) : s.operand2 (.imm 0 imm8) = ⟨zext imm8, s.cpsr.c⟩ := rfl

theorem zext_setWidth {n m : Nat} (v : BitVec n) (h : n ≤ m) : zext (v.setWidth m) = zext v := by
  apply BitVec.eq_of_toNat_eq
  simp only [zext, BitVec.toNat_setWidth]
  rw [Nat.mod_eq_of_lt (v.isLt.trans_le (Nat.pow_le_pow_right (by decide) h))]

/-! ## The shared operations under a low destination (R421) -/

theorem dpWrite_lowReg (v : Word) (flags : Psr) :
    s.dpWrite true (lowReg rd) v flags = (s.setReg (lowReg rd) v).setCpsr flags := by
  rw [State.dpWrite, if_neg (lowReg_ne_pc rd), if_pos rfl]

theorem dpLogic_lowReg (rn : LowReg) (op2 : Operand2) (op : Word → Word → Word) :
    s.dpLogic true (lowReg rd) (lowReg rn) op2 op =
      s.thumbLogic rd (op (s.low rn) (s.operand2 op2).value) (s.operand2 op2).carry := by
  simp only [State.dpLogic, operand1_lowReg, dpWrite_lowReg]
  rfl

theorem dpMove_lowReg (op2 : Operand2) (op : Word → Word) :
    s.dpMove true (lowReg rd) op2 op =
      s.thumbLogic rd (op (s.operand2 op2).value) (s.operand2 op2).carry :=
  dpWrite_lowReg s rd _ _

theorem dpArith_lowReg (rn : LowReg) (op2 : Operand2) (op : Word → Word → Bool → Sum) :
    s.dpArith true (lowReg rd) (lowReg rn) op2 op =
      s.thumbArith rd (op (s.low rn) (s.operand2 op2).value s.cpsr.c) := by
  simp only [State.dpArith, operand1_lowReg, dpWrite_lowReg]
  rfl

end

/-- Settles O51: the Thumb effect is the ARM effect under low operands; the product of MUL commutes. -/
theorem overlayAlu : Obligations.OverlayAlu := by
  intro s rd rs rn imm5 imm3 imm8 d m reg equals
  refine ⟨?lslImm, ?lsrImm, ?asrImm, ?addReg, ?subReg, ?addImm3, ?subImm3, ?movImm, ?cmpImm, ?addImm8, ?subImm8, ?and,
    ?eor, ?lslReg, ?lsrReg, ?asrReg, ?adc, ?sbc, ?rorReg, ?tst, ?neg, ?cmpReg, ?cmn, ?orr, ?mul, ?bic, ?mvn⟩ <;>
    refine ⟨_, rfl, exec_eq_next_of_pass rfl rfl ?_⟩
  case lslImm | lsrImm | asrImm => rw [dpMove_lowReg, operand2_shiftImm_lowReg]; rfl
  case lslReg | lsrReg | asrReg | rorReg => rw [dpMove_lowReg, operand2_shiftReg_lowReg]; rfl
  case addReg | subReg | adc | sbc => rw [dpArith_lowReg, operand2_lowReg]
  case addImm3 | subImm3 => rw [dpArith_lowReg, operand2_imm, zext_setWidth _ (by decide)]
  case addImm8 | subImm8 | neg => rw [dpArith_lowReg]; rfl
  case and | eor | orr | bic => rw [dpLogic_lowReg, operand2_lowReg]
  case movImm => rw [dpMove_lowReg]; rfl
  case mvn => rw [dpMove_lowReg, operand2_lowReg]
  case cmpImm => rw [State.dpArithTest, operand1_lowReg]; rfl
  case cmpReg | cmn => rw [State.dpArithTest, operand1_lowReg, operand2_lowReg]
  case tst => rw [State.dpLogicTest, operand1_lowReg, operand2_lowReg]; rfl
  case mul => rw [rop_lowReg, rop_lowReg, BitVec.mul_comm]

end Sys2Proof.Machine
end

section
/-! Memory (20_memory.md sections 2 and 3): a byte after a sized write, a sized read after it, and the canonical form,
in which equal memories are equal data. -/

namespace Sys2Proof.Machine

/-! ## Sized accesses (R64, R65) -/

/-- `Align(addr, n)` is the greatest multiple of the size that is not above the address. -/
theorem alignTo_eq_div_mul (size : AccessSize) (a : Word) :
    (alignTo size a).toNat = a.toNat / sizeBytes size * sizeBytes size := by
  cases size
  case byte => simp [alignTo, sizeBytes]
  case half => exact toNat_of_low_bits_cleared (k := 1) (align2_getLsbD a)
  case word => exact toNat_of_low_bits_cleared (k := 2) (align4_getLsbD a)

theorem byteAt_write (m : Memory) (a x : Word) (b : Byte) :
    (m.write a.toNat b).byteAt x = if x = a then b else m.byteAt x := by
  simp [Memory.byteAt, BitVec.toNat_inj]

/-- A byte inside a store of `v` is the little-endian byte of `v`. -/
theorem storedByte_inside (m : Memory) (size : AccessSize) (a v : Word) {d : Nat} (hd : d < sizeBytes size) :
    storedByte m size a v (alignTo size a + BitVec.ofNat 32 d) = v.extractLsb' (8 * d) 8 := by
  have hsmall : d < 4 := hd.trans_le (by cases size <;> decide)
  have hoffset : (alignTo size a + BitVec.ofNat 32 d - alignTo size a).toNat = d := by
    rw [add_sub_cancel_left, BitVec.toNat_ofNat]
    omega
  simp only [storedByte, hoffset, if_pos hd]

theorem storedByte_outside {m : Memory} {size : AccessSize} {a v x : Word}
    (hx : sizeBytes size ≤ (x - alignTo size a).toNat) : storedByte m size a v x = m.byteAt x :=
  if_neg (Nat.not_lt.mpr hx)

/-- Every byte after a sized write: the offset from the aligned address decides which write it meets last. -/
theorem byteAt_writeSized (m : Memory) (size : AccessSize) (a v x : Word) :
    (m.writeSized size a v).byteAt x = storedByte m size a v x := by
  obtain ⟨d, rfl⟩ : ∃ d, x = alignTo size a + d := ⟨x - alignTo size a, by rw [add_sub_cancel]⟩
  have hoffset : (alignTo size a + d - alignTo size a).toNat = d.toNat := by rw [add_sub_cancel_left]
  have hzero : alignTo size a + d = alignTo size a ↔ d.toNat = 0 := by
    rw [add_eq_left, ← BitVec.toNat_inj]
    rfl
  have hplus (k : Word) : alignTo size a + d = alignTo size a + k ↔ d.toNat = k.toNat := by
    rw [add_right_inj, BitVec.toNat_inj]
  simp only [storedByte, hoffset]
  generalize d.toNat = k at hzero hplus ⊢
  obtain hk | hk : k < 4 ∨ 4 ≤ k := by omega
  · cases size <;> simp only [Memory.writeSized, byteAt_write, hzero, hplus, sizeBytes] <;> interval_cases k <;> rfl
  · have hne {n : Nat} (hn : n < 4) : k ≠ n := by omega
    have houtside : ¬ k < sizeBytes size := by cases size <;> simp only [sizeBytes] <;> omega
    rw [if_neg houtside]
    cases size <;> simp only [Memory.writeSized, byteAt_write, hzero, hplus]
    · rw [if_neg (hne (by decide))]
    · rw [if_neg (hne (by decide)), if_neg (hne (by decide))]
    · rw [if_neg (hne (by decide)), if_neg (hne (by decide)), if_neg (hne (by decide)), if_neg (hne (by decide))]

/-- A sized read puts its bytes together: where they are those of `v`, it gives the low bytes of `v`. -/
theorem readSized_of_bytes {m : Memory} {size : AccessSize} {a v : Word}
    (h : ∀ d < sizeBytes size, m.byteAt (alignTo size a + BitVec.ofNat 32 d) = v.extractLsb' (8 * d) 8) :
    m.readSized size a = BitVec.ofNat 32 (v.toNat % 256 ^ sizeBytes size) := by
  have hlow (k : Nat) : (v.extractLsb' 0 k).toNat = v.toNat % 2 ^ k := by simp
  have h0 : m.byteAt (alignTo size a) = v.extractLsb' 0 8 := by
    have := h 0 (by cases size <;> decide)
    rwa [BitVec.add_zero] at this
  apply BitVec.eq_of_toNat_eq
  rw [BitVec.toNat_ofNat]
  cases size
  case byte =>
    rw [Memory.readSized, h0, BitVec.toNat_setWidth, hlow]
    rfl
  case half =>
    have h1 : m.byteAt (alignTo .half a + 1) = v.extractLsb' 8 8 := h 1 (by decide)
    have hpieces : v.extractLsb' 8 8 ++ v.extractLsb' 0 8 = v.extractLsb' 0 16 := extract_append_extract v rfl
    rw [Memory.readSized, h0, h1, hpieces, BitVec.toNat_setWidth, hlow]
    rfl
  case word =>
    have h1 : m.byteAt (alignTo .word a + 1) = v.extractLsb' 8 8 := h 1 (by decide)
    have h2 : m.byteAt (alignTo .word a + 2) = v.extractLsb' 16 8 := h 2 (by decide)
    have h3 : m.byteAt (alignTo .word a + 3) = v.extractLsb' 24 8 := h 3 (by decide)
    have hpieces : v.extractLsb' 24 8 ++ v.extractLsb' 16 8 ++ v.extractLsb' 8 8 ++ v.extractLsb' 0 8 =
        v.extractLsb' 0 32 := by
      iterate 3 rw [extract_append_extract v]
      all_goals rfl
    rw [Memory.readSized, h0, h1, h2, h3, hpieces, hlow]
    exact (Nat.mod_mod _ _).symm

theorem readSized_writeSized (m : Memory) (size : AccessSize) (a v : Word) :
    (m.writeSized size a v).readSized size a = BitVec.ofNat 32 (v.toNat % 256 ^ sizeBytes size) :=
  readSized_of_bytes fun _ hd => by rw [byteAt_writeSized, storedByte_inside m size a v hd]

/-- Settles O59. -/
theorem sizedReadAfterWrite : Obligations.SizedReadAfterWrite := fun m size a v =>
  ⟨alignTo_eq_div_mul size a, ⟨rfl, rfl, rfl⟩, readSized_writeSized m size a v, byteAt_writeSized m size a v,
    wf_writeSized size a v⟩

/-! ## Canonical memories (log 2) -/

/-- Below the lowest allowed address nothing is listed. -/
theorem read_of_lt {lo : Nat} {m : Memory} (h : m.wfFrom lo = true) {a : Nat} (ha : a < lo) :
    m.read a = Config.unlistedByte := by
  induction m generalizing lo with
  | nil => rfl
  | cons cell rest ih =>
    simp only [Memory.wfFrom, Bool.and_eq_true, decide_eq_true_eq] at h
    obtain ⟨⟨⟨hlo, -⟩, -⟩, hrest⟩ := h
    rw [Memory.read, if_neg (by omega)]
    exact ih hrest (by omega)

/-- The first listed address of a canonical memory reads as its byte, which is not that of an unlisted address. -/
theorem read_first {lo : Nat} {cell : Host.Cell} {rest : Memory} (h : Memory.wfFrom lo (cell :: rest) = true) :
    cell.1 < 2 ^ 32 ∧ Memory.read (cell :: rest) cell.1 ≠ Config.unlistedByte := by
  simp only [Memory.wfFrom, Bool.and_eq_true, decide_eq_true_eq, bne_iff_ne] at h
  obtain ⟨⟨⟨-, hlt⟩, hbyte⟩, -⟩ := h
  exact ⟨hlt, by rwa [Memory.read, if_pos rfl]⟩

/-- Two canonical memories that read alike list the same first address. -/
theorem first_le_first {lo lo' : Nat} {cell cell' : Host.Cell} {rest rest' : Memory}
    (h : Memory.wfFrom lo (cell :: rest) = true) (h' : Memory.wfFrom lo' (cell' :: rest') = true)
    (heq : ∀ a < 2 ^ 32, Memory.read (cell :: rest) a = Memory.read (cell' :: rest') a) : cell'.1 ≤ cell.1 := by
  obtain ⟨hlt, hbyte⟩ := read_first h
  by_contra hgt
  refine hbyte ((heq _ hlt).trans (read_of_lt (lo := cell'.1) ?_ (Nat.not_le.mp hgt)))
  simp only [Memory.wfFrom, Bool.and_eq_true, decide_eq_true_eq] at h' ⊢
  obtain ⟨⟨⟨-, hlt'⟩, hbyte'⟩, hrest'⟩ := h'
  exact ⟨⟨⟨le_rfl, hlt'⟩, hbyte'⟩, hrest'⟩

theorem eq_of_read_eq {lo lo' : Nat} {m m' : Memory} (h : m.wfFrom lo = true) (h' : m'.wfFrom lo' = true)
    (heq : ∀ a < 2 ^ 32, m.read a = m'.read a) : m = m' := by
  induction m generalizing lo lo' m' with
  | nil =>
    cases m' with
    | nil => rfl
    | cons cell' rest' =>
      obtain ⟨hlt, hbyte⟩ := read_first h'
      exact absurd (heq _ hlt).symm hbyte
  | cons cell rest ih =>
    cases m' with
    | nil =>
      obtain ⟨hlt, hbyte⟩ := read_first h
      exact absurd (heq _ hlt) hbyte
    | cons cell' rest' =>
      have haddr : cell.1 = cell'.1 :=
        le_antisymm (first_le_first h' h fun a ha => (heq a ha).symm) (first_le_first h h' heq)
      obtain ⟨hlt, -⟩ := read_first h
      have hbyte : cell.2 = cell'.2 := by simpa [Memory.read, haddr] using heq cell.1 hlt
      simp only [Memory.wfFrom, Bool.and_eq_true] at h h'
      refine congrArg₂ List.cons (Prod.ext haddr hbyte) (ih h.2 h'.2 fun a ha => ?_)
      by_cases hcell : cell.1 = a
      · rw [read_of_lt h.2 (by omega), read_of_lt h'.2 (by omega)]
      · simpa [Memory.read, hcell, haddr ▸ hcell] using heq a ha

/-- Settles O60. -/
theorem canonicalMemoryIsUnique : Obligations.CanonicalMemoryIsUnique := by
  intro m m' h h' heq
  refine eq_of_read_eq h h' fun a ha => ?_
  simpa only [Memory.byteAt, BitVec.toNat_ofNat, Nat.mod_eq_of_lt ha] using heq (BitVec.ofNat 32 a)

end Sys2Proof.Machine
end

section
/-! Single transfers (R280 to R316): what one load and one store leave behind, the data of each load in terms of memory,
and the Thumb transfers as ARM transfers without writeback. -/

namespace Sys2Proof.Machine

/-! ## Writeback and address (R282, R283) -/

theorem transferAddress_eq (base offset : Word) (up : Bool) (mode : IndexMode) :
    transferAddress base offset up mode =
      ⟨transferAt mode base (transferTarget up base offset), transferTarget up base offset,
        decide (mode ≠ .offset)⟩ := by
  cases mode <;> rfl

@[simp] theorem writeBase_flush (s : State) (ta : TransferAddress) (r : Reg) :
    (s.writeBase ta r).flush = (s.flush || (ta.writeback && decide (r = 15))) := by
  unfold State.writeBase
  split <;> simp [*]

@[simp] theorem reg_writeBase (s : State) (ta : TransferAddress) (r q : Reg) :
    (s.writeBase ta r).reg q = if ta.writeback = true ∧ r = q then ta.newBase else s.reg q := by
  unfold State.writeBase
  split <;> simp [*]

theorem noteRead_bus (s : State) (size : AccessSize) (a : Word) (sequential forced : Bool) :
    (s.noteRead size a sequential forced).bus = s.bus ++ [s.readAccess size a sequential forced] := rfl

theorem memWrite_bus (s : State) (size : AccessSize) (a v : Word) (sequential forced : Bool) :
    (s.memWrite size a v sequential forced).bus = s.bus ++ [s.writeAccess size a v sequential forced] := rfl

theorem writeAccess_noteRead (s : State) (z size : AccessSize) (b a v : Word) (x y sequential forced : Bool) :
    (s.noteRead z b x y).writeAccess size a v sequential forced = s.writeAccess size a v sequential forced := rfl

theorem writeAccess_memWrite (s : State) (z size : AccessSize) (b w a v : Word) (x y sequential forced : Bool) :
    (s.memWrite z b w x y).writeAccess size a v sequential forced = s.writeAccess size a v sequential forced := rfl

theorem readAccess_noteRead (s : State) (z size : AccessSize) (b a : Word) (x y sequential forced : Bool) :
    (s.noteRead z b x y).readAccess size a sequential forced = s.readAccess size a sequential forced := rfl

/-! ## One load, one store (R282, R286, R287, R298) -/

/-- The loaded value is written last, so it wins over the writeback. -/
theorem loadsTo_finishLoad (s : State) (size : AccessSize) (ta : TransferAddress) (forced : Bool) (rd rn : Reg)
    (data : Word) :
    loadsTo s (s.finishLoad size ta forced rd rn data) rd rn ta.writeback ta.newBase data
      (s.readAccess size ta.addr false forced) := by
  unfold State.finishLoad
  refine ⟨by simp, fun hwb hne => by simp [hwb, Ne.symm hne], ?other, ?flush, by simp, fun x => by simp, ?bus, ?same⟩
  case other =>
    intro r hrd hrn
    simp only [reg_writeReg, if_neg (Ne.symm hrd), reg_writeBase, reg_noteRead]
    exact if_neg fun ⟨hwb, heq⟩ => by simp [hrn heq.symm] at hwb
  case flush => simp [Bool.or_right_comm]
  case bus => simp [noteRead_bus]
  case same => simp [State.sameOther, State.sameBanks, State.sameSpsrs, State.sameRest]

theorem storesTo_finishStore (s : State) (size : AccessSize) (ta : TransferAddress) (forced : Bool) (rn : Reg)
    (v : Word) :
    storesTo s (s.finishStore size ta forced rn v) rn ta.writeback ta.newBase size ta.addr v
      (s.writeAccess size ta.addr v false forced) := by
  unfold State.finishStore
  refine ⟨fun x => ?mem, fun hwb => by simp [hwb], ?other, by simp, by simp, ?bus, ?same⟩
  case mem => rw [writeBase_mem, memWrite_mem, byteAt_writeSized]
  case other =>
    intro r hrn
    simp only [reg_writeBase, reg_memWrite]
    exact if_neg fun ⟨hwb, heq⟩ => by simp [hrn heq.symm] at hwb
  case bus => simp [memWrite_bus]
  case same => simp [State.sameOther, State.sameBanks, State.sameSpsrs, State.sameRest]

/-! ## The data of the loads (R68, R70 to R72) -/

theorem loadWord_eq (s : State) (a : Word) :
    s.loadWord a = (s.mem.readSized .word a).rotateRight (8 * (a.toNat % 4)) := by
  have hlow : (a.extractLsb' 0 2).toNat = a.toNat % 4 := by simp
  rw [State.loadWord, hlow]
  exact ror32_eq_rotateRight _ (by omega)

theorem bit0_eq (a : Word) : a.getLsbD 0 = decide (a.toNat % 2 = 1) := by
  rw [getLsbD_eq_quotient_odd, Nat.pow_zero, Nat.div_one]

theorem loadHalf_eq (s : State) (a : Word) :
    s.loadHalf a = (s.mem.readSized .half a).rotateRight (if decide (a.toNat % 2 = 1) then 8 else 0) := by
  rw [State.loadHalf, bit0_eq]
  exact ror32_eq_rotateRight _ (by split <;> decide)

theorem loadByteSigned_eq (s : State) (a : Word) : s.loadByteSigned a = (s.mem.byteAt a).signExtend 32 := by
  have hbyte : ((s.mem.byteAt a).setWidth 32).setWidth 8 = s.mem.byteAt a := by
    rw [BitVec.setWidth_setWidth_of_le _ (by decide), BitVec.setWidth_eq]
  exact congrArg sext hbyte

theorem loadHalfSigned_eq (s : State) (a : Word) :
    s.loadHalfSigned a =
      if decide (a.toNat % 2 = 1) then (s.mem.byteAt a).signExtend 32
      else ((s.mem.readSized .half a).setWidth 16 : BitVec 16).signExtend 32 := by
  rw [State.loadHalfSigned, bit0_eq, loadByteSigned_eq]
  rfl

/-! ## The statements -/

/-- Settles O31: each of the four is the one load at the address of its form. -/
theorem singleLoads : Obligations.SingleLoads := by
  intro s c mode up rd rn off hc target wb a b word byte
  have haddr (mode : IndexMode) : s.singleAddress mode up rn off =
      ⟨transferAt mode b target, target, decide (mode ≠ .offset)⟩ := transferAddress_eq _ _ up mode
  refine ⟨⟨_, exec_eq_next_of_pass hc rfl rfl, ?_⟩, ⟨_, exec_eq_next_of_pass hc rfl rfl, ?_⟩,
    ⟨_, exec_eq_next_of_pass hc rfl rfl, ?_⟩, ⟨_, exec_eq_next_of_pass hc rfl rfl, ?_⟩⟩ <;> rw [haddr]
  · rw [State.loadWordTo, loadWord_eq]
    exact loadsTo_finishLoad ..
  · exact loadsTo_finishLoad ..
  · rw [State.loadWordTo, loadWord_eq]
    exact loadsTo_finishLoad ..
  · exact loadsTo_finishLoad ..

/-- Settles O32: each of the four is the one store at the address of its form. -/
theorem singleStores : Obligations.SingleStores := by
  intro s c mode up rd rn off hc target wb a b v
  have haddr (mode : IndexMode) : s.singleAddress mode up rn off =
      ⟨transferAt mode b target, target, decide (mode ≠ .offset)⟩ := transferAddress_eq _ _ up mode
  refine ⟨⟨_, exec_eq_next_of_pass hc rfl rfl, ?_⟩, ⟨_, exec_eq_next_of_pass hc rfl rfl, ?_⟩,
    ⟨_, exec_eq_next_of_pass hc rfl rfl, ?_⟩, ⟨_, exec_eq_next_of_pass hc rfl rfl, ?_⟩⟩ <;>
    · rw [haddr]
      exact storesTo_finishStore ..

/-- Settles O33. -/
theorem halfTransfers : Obligations.HalfTransfers := by
  intro s c mode up rd rn off hc target wb a v odd byte half size
  have haddr : s.halfAddress mode up rn off = ⟨a, target, wb⟩ := transferAddress_eq _ _ up mode
  have hsize : signedHalfSize a = size := by rw [signedHalfSize, bit0_eq]
  refine ⟨⟨_, exec_eq_next_of_pass hc rfl rfl, ?_⟩, ⟨_, exec_eq_next_of_pass hc rfl rfl, ?_⟩,
    ⟨_, exec_eq_next_of_pass hc rfl rfl, ?_⟩, ⟨_, exec_eq_next_of_pass hc rfl rfl, ?_⟩⟩ <;> rw [haddr]
  · rw [State.loadHalfTo, loadHalf_eq]
    exact loadsTo_finishLoad ..
  · rw [State.loadByteSignedTo, loadByteSigned_eq]
    exact loadsTo_finishLoad ..
  · rw [State.loadHalfSignedTo, loadHalfSigned_eq, hsize]
    exact loadsTo_finishLoad ..
  · exact storesTo_finishStore ..

/-- An even register is not r15, and the one after it is r15 only after r14. -/
theorem even_reg (rd : Reg) : rd.val % 2 = 0 → rd ≠ 15 ∧ rd ≠ rd + 1 ∧ (rd + 1 = 15 ↔ rd = 14) := by
  revert rd; decide

/-- Settles O34: of two loaded words the second is written last, and an even register is none of the cases that r15
makes. -/
theorem doubleTransfers : Obligations.DoubleTransfers := by
  intro s c mode up rd rn off hc heven target wb a v0 v1
  obtain ⟨hpc, hnext, hlast⟩ := even_reg rd heven
  have haddr : s.halfAddress mode up rn off = ⟨a, target, wb⟩ := transferAddress_eq _ _ up mode
  have hv0 : s.storeData rd = v0 := rop_of_ne_pc hpc _
  constructor
  · refine ⟨_, exec_eq_next_of_pass hc rfl rfl, ?_⟩
    rw [haddr]
    unfold State.loadPair
    refine ⟨?_, ?_, fun hwb hrd hrd' => ?_, fun r hrd hrd' hrn => ?_, ?_, ?_, fun x => ?_, ?_, ?_⟩
    · simp [Ne.symm hnext, State.memRead]
    · simp [State.memRead]
    · simp [Ne.symm hrd, Ne.symm hrd', hwb]
    · simp only [reg_writeReg, if_neg (Ne.symm hrd), if_neg (Ne.symm hrd'), reg_writeBase, reg_noteRead]
      exact if_neg fun ⟨hwb, heq⟩ => by simp [hrn heq.symm] at hwb
    · simp [hpc, hlast, Bool.or_right_comm]
    · simp
    · simp
    · simp [noteRead_bus, readAccess_noteRead]
    · simp [State.sameOther, State.sameBanks, State.sameSpsrs, State.sameRest]
  · refine ⟨_, exec_eq_next_of_pass hc rfl rfl, ?_⟩
    rw [haddr]
    simp only [State.storePair, hv0]
    refine ⟨fun x => ?_, fun hwb => ?_, fun r hrn => ?_, ?_, ?_, ?_, ?_⟩
    · rw [writeBase_mem, memWrite_mem, memWrite_mem, byteAt_writeSized, storedByte, byteAt_writeSized]
      rfl
    · simp [hwb]
    · simp only [reg_writeBase, reg_memWrite]
      exact if_neg fun ⟨hwb, heq⟩ => by simp [hrn heq.symm] at hwb
    · simp
    · simp
    · simp [memWrite_bus, writeAccess_memWrite]
      rfl
    · simp [State.sameOther, State.sameBanks, State.sameSpsrs, State.sameRest]

/-- Settles O35. -/
theorem swaps : Obligations.Swaps := by
  intro s c rd rm rn hc a v answers
  have hswap {i : Instr} {size : AccessSize} {data data' : Word}
      (hexec : exec i s = .next (s.swap size rd a v data')) (hdata : data' = data) : answers i size data := by
    subst hdata
    refine ⟨_, hexec, ?_⟩
    unfold State.swap
    refine ⟨by simp, fun r hr => by simp [Ne.symm hr], fun x => ?_, by simp, by simp, ?_, ?_⟩
    · rw [writeReg_mem, memWrite_mem, noteRead_mem, byteAt_writeSized]
    · simp [memWrite_bus, noteRead_bus, writeAccess_noteRead]
    · simp [State.sameOther, State.sameBanks, State.sameSpsrs, State.sameRest]
  exact ⟨hswap (exec_eq_next_of_pass hc rfl rfl) (loadWord_eq s a), hswap (exec_eq_next_of_pass hc rfl rfl) rfl⟩

end Sys2Proof.Machine
end

section
/-! The Thumb transfers as ARM transfers without writeback, the stack forms (R460 to R491), and the hi-register and
pc-relative forms (R452 to R458, R478). -/

namespace Sys2Proof.Machine

/-! ## The overlay of the transfers (R420) -/

section
variable (s : State) (r : LowReg)

/-- Offset addressing from a low base writes nothing back. -/
theorem singleAddress_lowReg {off : Offset} {k : Word} (hoff : s.singleOffset off = k) :
    s.singleAddress .offset true (lowReg r) off = plainAddress (s.low r + k) := by
  rw [State.singleAddress, rop_lowReg, hoff]
  rfl

theorem singleAddress_sp {off : Offset} {k : Word} (hoff : s.singleOffset off = k) :
    s.singleAddress .offset true 13 off = plainAddress (s.reg 13 + k) := by
  rw [State.singleAddress, rop_of_ne_pc (by decide), hoff]
  rfl

theorem halfAddress_lowReg {off : HalfOffset} {k : Word} (hoff : s.halfOffset off = k) :
    s.halfAddress .offset true (lowReg r) off = plainAddress (s.low r + k) := by
  rw [State.halfAddress, rop_lowReg, hoff]
  rfl

theorem storeData_lowReg : s.storeData (lowReg r) = s.low r := rop_lowReg s r _

theorem singleOffset_lowReg : s.singleOffset (.shifted .lsl 0 (lowReg r)) = s.low r := rop_lowReg s r 8

end

/-- A field that is scaled within the width of an ARM offset. -/
theorem zext_setWidth_shiftLeft {n m k : Nat} (v : BitVec n) (h : n + k ≤ m) (hm : m ≤ 32) :
    zext ((v.setWidth m) <<< k) = zext v <<< k := by
  have hv := v.isLt
  have hscaled : v.toNat * 2 ^ k < 2 ^ m := by
    calc v.toNat * 2 ^ k
      _ < 2 ^ n * 2 ^ k := Nat.mul_lt_mul_of_pos_right hv (Nat.two_pow_pos k)
      _ = 2 ^ (n + k) := (Nat.pow_add 2 n k).symm
      _ ≤ 2 ^ m := Nat.pow_le_pow_right (by decide) h
  have hn : v.toNat < 2 ^ m := hv.trans_le (Nat.pow_le_pow_right (by decide) (by omega))
  have hn32 : v.toNat < 2 ^ 32 := hn.trans_le (Nat.pow_le_pow_right (by decide) hm)
  apply BitVec.eq_of_toNat_eq
  simp only [zext, BitVec.toNat_setWidth, BitVec.toNat_shiftLeft, Nat.shiftLeft_eq, Nat.mod_eq_of_lt hn,
    Nat.mod_eq_of_lt hscaled, Nat.mod_eq_of_lt hn32]

/-- The immediate rotated by 30 is the immediate times 4 (R109). -/
theorem rotatedImmediate_15 (imm8 : BitVec 8) : rotatedImmediate 15 imm8 = zext imm8 <<< 2 := by
  revert imm8; decide

theorem pushList_eq (r : Bool) (list : BitVec 8) :
    list.setWidth 16 ||| (if r then 0x4000#16 else 0) = pushList r list := by
  revert r list; decide

theorem popList_eq (r : Bool) (list : BitVec 8) :
    list.setWidth 16 ||| (if r then 0x8000#16 else 0) = popList r list := by
  revert r list; decide

/-- An addition or subtraction without flags into a register other than r15. -/
theorem dpArith_false_of_ne_pc {s : State} {rd rn : Reg} {op2 : Operand2} {op : Word → Word → Bool → Sum} {r : Word}
    (hrd : rd ≠ 15) (hop : (op (s.operand1 rn op2) (s.operand2 op2).value s.cpsr.c).result = r) :
    s.dpArith false rd rn op2 op = s.setReg rd r := by
  rw [State.dpArith, State.dpWrite, if_neg hrd, if_neg Bool.false_ne_true, hop]

/-- Settles O52. -/
theorem overlayTransfers : Obligations.OverlayTransfers := by
  intro s rd rb ro imm5 imm7 imm8 r d b index halfIndex words bytes halves stack equals
  have hindex : s.singleOffset index = s.low ro := singleOffset_lowReg s ro
  have hhalfIndex : s.halfOffset halfIndex = s.low ro := rop_lowReg s ro 8
  have hwords : s.singleOffset words = zext imm5 <<< 2 := zext_setWidth_shiftLeft imm5 (by decide) (by decide)
  have hbytes : s.singleOffset bytes = zext imm5 <<< 0 := (zext_setWidth imm5 (by decide)).trans (by simp)
  have hhalves : s.halfOffset halves = zext imm5 <<< 1 := zext_setWidth_shiftLeft imm5 (by decide) (by decide)
  have hstack : s.singleOffset stack = zext imm8 <<< 2 := zext_setWidth_shiftLeft imm8 (by decide) (by decide)
  refine ⟨?strReg, ?strbReg, ?ldrReg, ?ldrbReg, ?strhReg, ?ldsbReg, ?ldrhReg, ?ldshReg, ?strImm, ?ldrImm, ?strbImm,
    ?ldrbImm, ?strhImm, ?ldrhImm, ?strSp, ?ldrSp, ?addSp, ?addSpImm, ?subSpImm, ?push, ?pop, ?stmia, ?ldmia⟩ <;>
    refine ⟨_, rfl, exec_eq_next_of_pass rfl rfl ?_⟩
  case strReg | strbReg => rw [singleAddress_lowReg s rb hindex, storeData_lowReg]; rfl
  case ldrReg | ldrbReg => rw [singleAddress_lowReg s rb hindex]; rfl
  case strhReg => rw [halfAddress_lowReg s rb hhalfIndex, storeData_lowReg]; rfl
  case ldsbReg | ldrhReg | ldshReg => rw [halfAddress_lowReg s rb hhalfIndex]; rfl
  case strImm => rw [singleAddress_lowReg s rb hwords, storeData_lowReg]; rfl
  case ldrImm => rw [singleAddress_lowReg s rb hwords]; rfl
  case strbImm => rw [singleAddress_lowReg s rb hbytes, storeData_lowReg]; rfl
  case ldrbImm => rw [singleAddress_lowReg s rb hbytes]; rfl
  case strhImm => rw [halfAddress_lowReg s rb hhalves, storeData_lowReg]; rfl
  case ldrhImm => rw [halfAddress_lowReg s rb hhalves]; rfl
  case strSp => rw [singleAddress_sp s hstack, storeData_lowReg]; rfl
  case ldrSp => rw [singleAddress_sp s hstack]; rfl
  case addSp =>
    refine dpArith_false_of_ne_pc (lowReg_ne_pc rd) ?_
    rw [addWithCarry_false_eq]
    exact congrArg (s.reg 13 + ·) (rotatedImmediate_15 imm8)
  case addSpImm =>
    refine dpArith_false_of_ne_pc (by decide) ?_
    rw [addWithCarry_false_eq]
    exact congrArg (s.reg 13 + ·) ((rotatedImmediate_15 _).trans (by rw [zext_setWidth imm7 (by decide)]))
  case subSpImm =>
    refine dpArith_false_of_ne_pc (by decide) ?_
    rw [addWithCarry_complement_true_eq]
    exact congrArg (s.reg 13 - ·) ((rotatedImmediate_15 _).trans (by rw [zext_setWidth imm7 (by decide)]))
  case push => rw [pushList_eq]
  case pop => rw [popList_eq]
  case stmia | ldmia => rfl

/-! ## Hi registers and the pc (R450 to R458, R478) -/

/-- The pc aligned to 4, in Thumb state, plus an 8-bit immediate scaled by 4. -/
theorem alignedPc_add {s : State} (ht : s.cpsr.t = true) (imm8 : BitVec 8) :
    s.alignedPc + (zext imm8 <<< 2) = BitVec.ofNat 32 ((s.reg 15).toNat / 4 * 4 + 4 * imm8.toNat) := by
  have hpc : s.alignedPc = BitVec.ofNat 32 ((s.reg 15).toNat / 4 * 4) := by
    have hread : s.pcRead 4 = s.reg 15 := by
      rw [State.pcRead, instrAddr_eq, ht]
      exact BitVec.sub_add_cancel _ _
    rw [State.alignedPc, hread]
    exact alignWidth_eq_div_mul false (s.reg 15)
  have hscaled : zext imm8 <<< 2 = BitVec.ofNat 32 (4 * imm8.toNat) := by
    revert imm8; decide
  rw [hpc, hscaled, BitVec.ofNat_add]

/-- At an address that is a multiple of 4 a word load does not rotate (R68). -/
theorem loadWord_of_aligned (s : State) {n : Nat} (hn : n % 4 = 0) :
    s.loadWord (BitVec.ofNat 32 n) = s.mem.readSized .word (BitVec.ofNat 32 n) := by
  have hlow : (BitVec.ofNat 32 n).toNat % 4 = 0 := by
    rw [BitVec.toNat_ofNat]
    omega
  rw [loadWord_eq, hlow, ← ror32_eq_rotateRight _ (by decide)]
  rfl

/-- Settles O53: in Thumb state r15 reads as the fetch address, and the scaled address is a multiple of 4. -/
theorem thumbHiAndPcRelative : Obligations.ThumbHiAndPcRelative := by
  intro s rd rs lo imm8 ht a b at4
  have hread (r : Reg) : s.rop 4 r = s.reg r := rop_eq_reg (by simp [ht]) r
  have haddr : s.alignedPc + (zext imm8 <<< 2) = at4 := alignedPc_add ht imm8
  refine ⟨?add, ?cmp, ?mov, ⟨_, rfl, ?load⟩, ?address⟩
  case add =>
    show Host.Outcome.next (s.writeReg rd (s.rop 4 rd + s.rop 4 rs)) = _
    rw [hread, hread, writeReg_eq_writeAnswer]
  case cmp =>
    show Host.Outcome.next (s.setCpsr (s.cpsr.setArith (addWithCarry (s.rop 4 rd) (~~~(s.rop 4 rs)) true))) = _
    rw [hread, hread, addWithCarry_complement_true_eq]
    rfl
  case mov =>
    show Host.Outcome.next (s.writeReg rd (s.rop 4 rs)) = _
    rw [hread, writeReg_eq_writeAnswer]
  case load =>
    rw [haddr, ← loadWord_of_aligned s (n := (s.reg 15).toNat / 4 * 4 + 4 * imm8.toNat) (by omega)]
    exact loadsTo_finishLoad s .word (plainAddress at4) false (lowReg lo) 0 _
  case address => exact congrArg (fun v => Host.Outcome.next (s.setReg (lowReg lo) v)) haddr

end Sys2Proof.Machine
end

section
/-! Multiple transfers (R330 to R345). The registers of a list are transferred in ascending order from ascending
addresses: `Slots` says that a list of registers stands at successive words, each register at its own address of R331;
the loads, the stores and the Bus records of a transfer follow by induction on it. -/

namespace Sys2Proof.Machine

/-! ## The registers of a list and their slots (R331, R332, R340) -/

/-- The registers stand at successive words from `a` on, each at the address `f` gives it; `g` is false of the first
of a whole transfer only. -/
def Slots (f : Reg → Word) (g : Reg → Bool) (a : Word) (sequential : Bool) : List Reg → Prop
  | [] => True
  | r :: rest => f r = a ∧ g r = sequential ∧ Slots f g (a + 4) true rest

/-- The flag of R333 of a register in a list. -/
def notFirst (list : BitVec 16) (r : Reg) : Bool := decide (countBelow list r.val ≠ 0)

theorem countBelow_succ (list : BitVec 16) (n : Nat) :
    countBelow list (n + 1) = countBelow list n + if list.getLsbD n then 1 else 0 := by
  simp only [countBelow, List.range_succ, List.countP_append, List.countP_cons, List.countP_nil, Nat.zero_add]

/-- The listed registers from number n up, in ascending order. -/
def listedFrom (list : BitVec 16) (n : Nat) : List Reg := ((List.finRange 16).drop n).filter fun r => list.getLsbD r.val

theorem listedFrom_of_lt (list : BitVec 16) {n : Nat} (hn : n < 16) :
    listedFrom list n =
      if list.getLsbD n then ⟨n, hn⟩ :: listedFrom list (n + 1) else listedFrom list (n + 1) := by
  have hdrop : (List.finRange 16).drop n = ⟨n, hn⟩ :: (List.finRange 16).drop (n + 1) := by
    rw [List.drop_eq_getElem_cons (by simpa using hn)]
    simp
  simp only [listedFrom, hdrop, List.filter_cons]

theorem listedFrom_16 (list : BitVec 16) : listedFrom list 16 = [] := rfl

/-- A register found at number n moves the next one up by a word. -/
theorem slots_listedFrom (list : BitVec 16) (start : Word) {n k : Nat} (hk : n + k = 16) :
    Slots (fun r => start + BitVec.ofNat 32 (4 * countBelow list r.val)) (notFirst list)
      (start + BitVec.ofNat 32 (4 * countBelow list n)) (decide (countBelow list n ≠ 0)) (listedFrom list n) := by
  induction k generalizing n with
  | zero =>
    obtain rfl : n = 16 := hk
    trivial
  | succ k ih =>
    have hnext := ih (n := n + 1) (by omega)
    rw [listedFrom_of_lt list (by omega : n < 16)]
    rw [countBelow_succ] at hnext
    cases hbit : list.getLsbD n
    · simpa only [hbit, Bool.false_eq_true, if_false, Nat.add_zero] using hnext
    · rw [hbit, if_pos rfl] at hnext
      rw [if_pos rfl]
      refine ⟨rfl, rfl, ?_⟩
      have haddr : start + BitVec.ofNat 32 (4 * (countBelow list n + 1)) =
          start + BitVec.ofNat 32 (4 * countBelow list n) + 4 := by
        rw [Nat.mul_add, BitVec.ofNat_add, BitVec.add_assoc]
        rfl
      rwa [haddr, decide_eq_true (Nat.succ_ne_zero _)] at hnext

theorem transferredRegs_of_ne_zero {list : BitVec 16} (h : list ≠ 0) : transferredRegs list = listedFrom list 0 := by
  simp only [transferredRegs, transferred, if_neg h, listedFrom, List.drop_zero]

theorem mem_transferredRegs {list : BitVec 16} {r : Reg} : r ∈ transferredRegs list ↔ transferred list r = true := by
  simp [transferredRegs]

theorem blockRegs_eq (list : BitVec 16) : blockRegs list = transferredRegs list := by
  by_cases h : list = 0
  · subst h
    decide
  · simp only [blockRegs, if_neg h, transferredRegs, transferred]
    rfl

/-- The count of R331 by the list's bits. -/
theorem length_listedFrom (list : BitVec 16) {n k : Nat} (hk : n + k = 16) :
    countBelow list n + (listedFrom list n).length = countBelow list 16 := by
  induction k generalizing n with
  | zero =>
    obtain rfl : n = 16 := hk
    rfl
  | succ k ih =>
    rw [← ih (n := n + 1) (by omega), countBelow_succ, listedFrom_of_lt list (by omega : n < 16)]
    cases list.getLsbD n
    · rfl
    · simp only [if_true, List.length_cons]
      omega

theorem blockCount_eq (list : BitVec 16) : blockCount list = listedCount list := by
  unfold blockCount listedCount
  split
  · rfl
  · next h =>
    rw [blockRegs_eq, transferredRegs_of_ne_zero h, ← length_listedFrom list (k := 16) (Nat.zero_add 16)]
    exact (Nat.zero_add _).symm

/-- Each transferred register has its own word, from the lowest address up. -/
theorem slots_transferredRegs (mode : BlockMode) (base : Word) (list : BitVec 16) :
    Slots (slotAddress mode base list) (notFirst list) (blockStart mode base (listedCount list)) false
      (transferredRegs list) := by
  by_cases h : list = 0
  · subst h
    exact ⟨BitVec.add_zero _, by decide, trivial⟩
  · have hslots := slots_listedFrom list (blockStart mode base (listedCount list)) (k := 16) (Nat.zero_add 16)
    rw [transferredRegs_of_ne_zero h]
    have hzero : countBelow list 0 = 0 := rfl
    rw [hzero, BitVec.add_zero] at hslots
    exact hslots

/-! ## Successive words -/

section
variable {f : Reg → Word} {g : Reg → Bool}

theorem Slots.true_of_mem {a : Word} {L : List Reg} (h : Slots f g a true L) {r : Reg} (hr : r ∈ L) : g r = true := by
  induction L generalizing a with
  | nil => cases hr
  | cons r' rest ih =>
    obtain ⟨-, hg, hrest⟩ := h
    rcases List.mem_cons.mp hr with rfl | hr
    · exact hg
    · exact ih hrest hr

/-- A register of the list stands a whole number of words above the start. -/
theorem Slots.exists_offset {a : Word} {q : Bool} {L : List Reg} (h : Slots f g a q L) {r : Reg} (hr : r ∈ L) :
    ∃ k < L.length, f r = a + BitVec.ofNat 32 (4 * k) := by
  induction L generalizing a q with
  | nil => cases hr
  | cons r' rest ih =>
    obtain ⟨hf, -, hrest⟩ := h
    rcases List.mem_cons.mp hr with rfl | hr
    · exact ⟨0, Nat.succ_pos _, by rw [hf]; exact (BitVec.add_zero _).symm⟩
    · obtain ⟨k, hk, hr⟩ := ih hrest hr
      refine ⟨k + 1, Nat.succ_lt_succ hk, ?_⟩
      rw [hr, Nat.mul_add, BitVec.ofNat_add, BitVec.add_assoc, BitVec.add_comm 4]
      rfl

/-- The words that a transfer loads (R332). -/
theorem Slots.loadedWords {a : Word} {q : Bool} {L : List Reg} (h : Slots f g a q L) (s : State) :
    s.loadedWords a L = L.map fun r => (r, s.mem.readSized .word (f r)) := by
  induction L generalizing a q with
  | nil => rfl
  | cons r rest ih =>
    obtain ⟨hf, -, hrest⟩ := h
    simp only [State.loadedWords, ih hrest, List.map_cons, hf]
    rfl

/-- The Bus sees the reads of a transfer in order, and nothing else changes. -/
theorem Slots.noteReads {a : Word} {q : Bool} {L : List Reg} (h : Slots f g a q L) (s : State) :
    noteReads s a q L = { s with bus := s.bus ++ L.map fun r => s.readAccess .word (f r) (g r) false } := by
  induction L generalizing a q s with
  | nil => simp [Machine.noteReads]
  | cons r rest ih =>
    obtain ⟨hf, hg, hrest⟩ := h
    rw [Machine.noteReads, ih hrest, noteRead_eq]
    simp only [List.append_assoc, List.map_cons, List.singleton_append, hf, hg]
    rfl

/-- The state after the stores of a transfer, but for what stands in memory. -/
theorem Slots.storeWords {a : Word} {q : Bool} {L : List Reg} (h : Slots f g a q L) (s : State) (value : Reg → Word) :
    storeWords s a q (L.map value) =
      { s with
        mem := (storeWords s a q (L.map value)).mem
        bus := s.bus ++ L.map fun r => s.writeAccess .word (f r) (value r) (g r) false } := by
  induction L generalizing a q s with
  | nil => simp [Machine.storeWords]
  | cons r rest ih =>
    obtain ⟨hf, hg, hrest⟩ := h
    rw [List.map_cons, Machine.storeWords, ih hrest, memWrite_bus]
    simp only [List.append_assoc, List.map_cons, List.singleton_append, hf, hg]
    rfl

/-- A byte outside the words of a transfer. -/
theorem Slots.byteAt_storeWords_outside {a : Word} {q : Bool} {L : List Reg} (h : Slots f g a q L) (s : State)
    (value : Reg → Word) {x : Word} (hx : ∀ r ∈ L, 4 ≤ (x - alignTo .word (f r)).toNat) :
    (Machine.storeWords s a q (L.map value)).mem.byteAt x = s.mem.byteAt x := by
  induction L generalizing a q s with
  | nil => rfl
  | cons r rest ih =>
    obtain ⟨hf, -, hrest⟩ := h
    rw [List.map_cons, Machine.storeWords, ih hrest _ fun r hr => hx r (List.mem_cons_of_mem _ hr), memWrite_mem,
      byteAt_writeSized, ← hf]
    exact storedByte_outside (hx r List.mem_cons_self)

theorem alignTo_word_add (a : Word) (k : Nat) :
    alignTo .word (a + BitVec.ofNat 32 (4 * k)) = alignTo .word a + BitVec.ofNat 32 (4 * k) := by
  apply BitVec.eq_of_toNat_eq
  simp only [alignTo_eq_div_mul, BitVec.toNat_add, BitVec.toNat_ofNat, sizeBytes]
  omega

/-- Words of one transfer do not overlap: it is shorter than the address space. -/
theorem four_le_sub_of_offset (a : Word) {k d : Nat} (hk : k < 16) (hd : d < 4) :
    4 ≤ (alignTo .word a + BitVec.ofNat 32 d - alignTo .word (a + 4 + BitVec.ofNat 32 (4 * k))).toNat := by
  have hnext : a + 4 + BitVec.ofNat 32 (4 * k) = a + BitVec.ofNat 32 (4 * (k + 1)) := by
    rw [Nat.mul_add, BitVec.ofNat_add, BitVec.add_assoc, BitVec.add_comm 4]
    rfl
  rw [hnext, alignTo_word_add, add_sub_add_left_eq_sub, BitVec.toNat_sub, BitVec.toNat_ofNat, BitVec.toNat_ofNat]
  omega

/-- A byte inside the word of a register. -/
theorem Slots.byteAt_storeWords_inside {a : Word} {q : Bool} {L : List Reg} (h : Slots f g a q L) (s : State)
    (value : Reg → Word) (hlen : L.length ≤ 16) {r : Reg} (hr : r ∈ L) {d : Nat} (hd : d < 4) :
    (Machine.storeWords s a q (L.map value)).mem.byteAt (alignTo .word (f r) + BitVec.ofNat 32 d) =
      (value r).extractLsb' (8 * d) 8 := by
  induction L generalizing a q s with
  | nil => cases hr
  | cons r' rest ih =>
    obtain ⟨hf, -, hrest⟩ := h
    rw [List.length_cons] at hlen
    rw [List.map_cons, Machine.storeWords]
    rcases List.mem_cons.mp hr with rfl | hr
    · rw [hrest.byteAt_storeWords_outside, memWrite_mem, byteAt_writeSized, ← hf]
      · exact storedByte_inside _ _ _ _ hd
      · intro r' hr'
        obtain ⟨k, hk, hr'⟩ := hrest.exists_offset hr'
        rw [hr', hf]
        exact four_le_sub_of_offset a (by omega) hd
    · exact ih hrest _ (by omega) hr

end

/-! ## The stores of STM (R332, R335) -/

@[simp] theorem blockWriteback_flush (s : State) (wb : Bool) (rn : Reg) (v : Word) :
    (s.blockWriteback wb rn v).flush = (s.flush || (wb && decide (rn = 15))) := by
  cases wb <;> simp [State.blockWriteback]

@[simp] theorem reg_blockWriteback (s : State) (wb : Bool) (rn r : Reg) (v : Word) :
    (s.blockWriteback wb rn v).reg r = if wb = true ∧ rn = r then v else s.reg r := by
  cases wb <;> simp [State.blockWriteback]

/-- What a writeback leaves as it was. -/
theorem blockWriteback_frame (s : State) (wb : Bool) (rn : Reg) (v : Word) :
    (s.blockWriteback wb rn v).cpsr = s.cpsr ∧ (s.blockWriteback wb rn v).mem = s.mem ∧
      (s.blockWriteback wb rn v).bus = s.bus ∧ s.sameOther (s.blockWriteback wb rn v) := by
  cases wb
  · exact ⟨rfl, rfl, rfl, ⟨rfl, rfl, rfl, rfl, rfl, rfl⟩, ⟨rfl, rfl, rfl, rfl, rfl⟩, rfl, rfl, rfl, rfl, rfl,
      rfl, rfl⟩
  · exact ⟨writeReg_cpsr s rn v, writeReg_mem s rn v, writeReg_bus s rn v, sameOther_writeReg s rn v⟩

theorem sameOther_trans {s t u : State} (h : s.sameOther t) (k : t.sameOther u) : s.sameOther u := by
  simp only [State.sameOther, State.sameBanks, State.sameSpsrs, State.sameRest] at *
  simp_all

/-- A base in the list is the first register of it exactly if none stands below it (R335). -/
theorem head?_transferredRegs {list : BitVec 16} {rn : Reg} (hrn : rn ∈ transferredRegs list) :
    (transferredRegs list).head? = some rn ↔ countBelow list rn.val = 0 := by
  have hslots := slots_transferredRegs .ia 0 list
  cases hL : transferredRegs list with
  | nil => simp [hL] at hrn
  | cons r rest =>
    rw [hL] at hslots hrn
    obtain ⟨-, hfirst, hrest⟩ := hslots
    have hzero : countBelow list r.val = 0 := by simpa [notFirst] using hfirst
    rw [List.head?_cons, Option.some.injEq]
    refine ⟨fun heq => heq ▸ hzero, fun hcount => ?_⟩
    rcases List.mem_cons.mp hrn with rfl | hrn
    · rfl
    · exact absurd (hrest.true_of_mem hrn) (by simp [notFirst, hcount])

/-- The word stored for a transferred register. -/
theorem blockValue_eq (s : State) (user wb : Bool) (mode : BlockMode) (rn : Reg) {list : BitVec 16} {r : Reg}
    (hr : r ∈ transferredRegs list) :
    s.blockValue user wb rn list (s.rop 8 rn) (blockBase mode (s.rop 8 rn) (listedCount list)) r =
      s.storedWord user wb mode rn list r := by
  unfold State.blockValue State.storedWord
  by_cases hpc : r = 15
  · rw [if_pos hpc, if_pos hpc]
    rfl
  · rw [if_neg hpc, if_neg hpc]
    by_cases hbase : r = rn ∧ wb
    · rw [if_pos hbase, if_pos hbase]
      unfold storedBase
      have hhead := head?_transferredRegs (hbase.1 ▸ hr)
      cases s.cfg.stmBaseInList <;> simp only [blockRegs_eq, hhead]
    · rw [if_neg hbase, if_neg hbase]
      rfl

/-- The first clause of O39: the table of R331 and R340. -/
theorem blockTable (base : Word) (list : BitVec 16) :
    listedCount list = (if list = 0 then 16 else ((List.range 16).filter fun k => list.getLsbD k).length) ∧
    (list = 0 → blockStart .da base (listedCount list) = base - 0x3C ∧
      blockStart .db base (listedCount list) = base - 0x40 ∧
      blockBase .ib base (listedCount list) = base + 0x40 ∧ blockBase .da base (listedCount list) = base - 0x40) := by
  refine ⟨by rw [← List.countP_eq_length_filter]; rfl, ?_⟩
  rintro rfl
  refine ⟨?_, rfl, rfl, rfl⟩
  show base - 64#32 + 4 = base - 0x3C
  bv_omega

/-- Settles O39. -/
theorem storeMultiple : Obligations.StoreMultiple := by
  refine ⟨fun base list => ?table, fun s c mode sb wb rn list hc => ?answer⟩
  case table =>
    obtain ⟨hcount, hempty⟩ := blockTable base list
    exact ⟨hcount, rfl, rfl, rfl, rfl, rfl, rfl, rfl, rfl, hempty⟩
  case answer =>
    intro value
    have hslots := slots_transferredRegs mode (s.rop 8 rn) list
    have hlen : (transferredRegs list).length ≤ 16 := (List.length_filter_le _ _).trans (by simp)
    have hwords : (blockRegs list).map (s.blockValue sb wb rn list (s.rop 8 rn)
        (blockBase mode (s.rop 8 rn) (listedCount list))) = (transferredRegs list).map value := by
      rw [blockRegs_eq]
      exact List.map_congr_left fun r hr => blockValue_eq s sb wb mode rn hr
    refine ⟨_, exec_eq_next_of_pass hc rfl rfl, ?_⟩
    simp only [State.storeMultiple, blockCount_eq, hwords]
    generalize hu : Machine.storeWords s (blockStart mode (s.rop 8 rn) (listedCount list)) false
      ((transferredRegs list).map value) = u
    have hframe := hslots.storeWords s value
    rw [hu] at hframe
    obtain ⟨hcpsr, hmem, hbus, hsame⟩ := blockWriteback_frame u wb rn (blockBase mode (s.rop 8 rn) (listedCount list))
    rw [hcpsr, hmem, hbus]
    refine ⟨⟨fun r hr d hd => ?inside, fun x hx => ?outside⟩, ?base, ?others, ?flush, ?cpsr, ?bus, ?same⟩
    case inside =>
      rw [← hu]
      exact hslots.byteAt_storeWords_inside s value hlen (mem_transferredRegs.mpr hr) hd
    case outside =>
      rw [← hu]
      exact hslots.byteAt_storeWords_outside s value fun r hr => hx r (mem_transferredRegs.mp hr)
    case base =>
      intro hwb
      rw [reg_blockWriteback, if_pos ⟨hwb, rfl⟩]
    case others =>
      intro r hr
      rw [reg_blockWriteback, if_neg fun ⟨hwb, heq⟩ => by simp [hr heq.symm] at hwb, hframe]
      rfl
    case flush => rw [blockWriteback_flush, hframe]
    case cpsr => rw [hframe]
    case bus => rw [hframe]; rfl
    case same =>
      have hstored : s.sameOther u := by
        rw [hframe]
        exact ⟨⟨rfl, rfl, rfl, rfl, rfl, rfl⟩, ⟨rfl, rfl, rfl, rfl, rfl⟩, rfl, rfl, rfl, rfl, rfl, rfl, rfl⟩
      exact sameOther_trans hstored hsame

end Sys2Proof.Machine
end

section
/-! The loads of LDM (R332 to R341): the loaded words go to the registers as the transfer's mode sees them, and r15 is
written last, as a branch or as the return from an exception. -/

namespace Sys2Proof.Machine

/-! ## A register as a mode sees it (R25) -/

theorem setRegMode_current (s : State) (r : Reg) (v : Word) : s.setRegMode s.cpsr.m r v = s.setReg r v := by
  unfold State.setRegMode
  cases homeOf s.cpsr.m r <;> simp

/-- The user's register is live where the homes agree, else its cell in the user bank. -/
theorem setRegMode_user (s : State) (r : Reg) (v : Word) :
    s.setRegMode modeUsr r v =
      if homeOf s.cpsr.m r = homeOf modeUsr r then s.setReg r v else s.setShadow .usr r v := by
  unfold State.setRegMode
  by_cases hr : r.val < 8 ∨ r.val = 15
  · simp only [homeOf_of_unbanked _ hr, if_true]
  · have husr : homeOf modeUsr r = some .usr := by
      rw [homeOf_of_banked modeUsr (by omega) (by omega), savedInto]
      split <;> rfl
    simp only [husr]

theorem shadow_setShadow_usr (s : State) {r q : Reg} (hr : bankHolds .usr r = true) (hq : bankHolds .usr q = true)
    (v : Word) : (s.setShadow .usr r v).shadow .usr q = if r = q then v else s.shadow .usr q := by
  simp only [bankHolds, Bool.and_eq_true, decide_eq_true_eq] at hr hq
  have hcell : r.val - 8 = q.val - 8 ↔ r = q := by
    rw [Fin.ext_iff]
    omega
  have hin : q.val - 8 < 7 := by omega
  simp [State.setShadow, State.shadow, Array.getD, hin, Array.getElem_setIfInBounds, hcell]

/-! ## The loaded registers (R332) -/

section
variable {L : List Reg} {w : Reg → Word}

theorem writeLoaded_current_frame (s : State) :
    ∃ regs, writeLoaded s.cpsr.m s (L.map fun r => (r, w r)) = { s with regs := regs } := by
  induction L generalizing s with
  | nil => exact ⟨_, rfl⟩
  | cons r rest ih =>
    simp only [List.map_cons, writeLoaded, setRegMode_current]
    split
    · exact ih s
    · exact ih (s.setReg r (w r))

/-- A register of the list holds its word; r15 is left aside. -/
theorem reg_writeLoaded_current (s : State) (q : Reg) :
    (writeLoaded s.cpsr.m s (L.map fun r => (r, w r))).reg q = if q ∈ L ∧ q ≠ 15 then w q else s.reg q := by
  induction L generalizing s with
  | nil => simp [writeLoaded]
  | cons r rest ih =>
    simp only [List.map_cons, writeLoaded, setRegMode_current]
    by_cases hr : r = 15
    · rw [if_pos hr, ih]
      by_cases hq : q = 15 <;> simp [hr, hq]
    · have := ih (s.setReg r (w r))
      rw [setReg_cpsr] at this
      rw [if_neg hr, this, reg_setReg]
      by_cases hq : r = q
      · subst hq
        simp [hr]
      · simp [hq, Ne.symm hq]

theorem writeLoaded_user_frame (s : State) :
    ∃ regs usr, writeLoaded modeUsr s (L.map fun r => (r, w r)) = { s with regs := regs, bankUsr := usr } := by
  induction L generalizing s with
  | nil => exact ⟨_, _, rfl⟩
  | cons r rest ih =>
    simp only [List.map_cons, writeLoaded, setRegMode_user]
    split
    · exact ih s
    · split
      · exact ih (s.setReg r (w r))
      · exact ih (s.setShadow .usr r (w r))

/-- The live registers after the user-bank form: those that are the user's own. -/
theorem reg_writeLoaded_user (s : State) (hL : 15 ∉ L) (q : Reg) :
    (writeLoaded modeUsr s (L.map fun r => (r, w r))).reg q =
      if q ∈ L ∧ homeOf s.cpsr.m q = homeOf modeUsr q then w q else s.reg q := by
  induction L generalizing s with
  | nil => simp [writeLoaded]
  | cons r rest ih =>
    obtain ⟨hr, hrest⟩ : r ≠ 15 ∧ 15 ∉ rest := by simpa [eq_comm] using hL
    simp only [List.map_cons, writeLoaded, setRegMode_user, if_neg hr]
    split
    · next hhome =>
      rw [ih _ hrest, setReg_cpsr, reg_setReg]
      by_cases hq : r = q
      · subst hq
        simp [hhome]
      · simp [hq, Ne.symm hq]
    · next hhome =>
      rw [ih _ hrest, setShadow_cpsr, reg_setShadow]
      by_cases hq : r = q
      · subst hq
        simp [hhome]
      · simp [Ne.symm hq]

/-- A register that is no home of the mode's own is banked in both modes. -/
theorem bankHolds_usr_of_homeOf_ne {m m' : BitVec 5} {r : Reg} (h : homeOf m r ≠ homeOf m' r) :
    bankHolds .usr r = true := by
  by_cases hr : r.val < 8 ∨ r.val = 15
  · exact absurd ((homeOf_of_unbanked m hr).trans (homeOf_of_unbanked m' hr).symm) h
  · simp only [bankHolds, Bool.and_eq_true, decide_eq_true_eq]
    omega

/-- The cells of the user bank after the user-bank form: those whose registers are not live. -/
theorem shadow_writeLoaded_user (s : State) (hL : 15 ∉ L) {q : Reg} (hq : bankHolds .usr q = true) :
    (writeLoaded modeUsr s (L.map fun r => (r, w r))).shadow .usr q =
      if q ∈ L ∧ homeOf s.cpsr.m q ≠ homeOf modeUsr q then w q else s.shadow .usr q := by
  induction L generalizing s with
  | nil => simp [writeLoaded]
  | cons r rest ih =>
    obtain ⟨hr, hrest⟩ : r ≠ 15 ∧ 15 ∉ rest := by simpa [eq_comm] using hL
    simp only [List.map_cons, writeLoaded, setRegMode_user, if_neg hr]
    split
    · next hhome =>
      have hshadow : (s.setReg r (w r)).shadow .usr q = s.shadow .usr q := rfl
      rw [ih _ hrest, setReg_cpsr, hshadow]
      by_cases hrq : r = q
      · subst hrq
        simp [hhome]
      · simp [Ne.symm hrq]
    · next hhome =>
      rw [ih _ hrest, setShadow_cpsr, shadow_setShadow_usr s (bankHolds_usr_of_homeOf_ne hhome) hq]
      by_cases hrq : r = q
      · subst hrq
        simp [hhome]
      · simp [hrq, Ne.symm hrq]

/-- The word for r15, if it is loaded. -/
theorem find?_pc : ((L.map fun r => (r, w r)).find? fun d => d.1 = 15) = if 15 ∈ L then some (15, w 15) else none := by
  induction L with
  | nil => rfl
  | cons r rest ih =>
    by_cases hr : r = 15
    · simp [hr]
    · rw [List.map_cons, List.find?_cons_of_neg (by simpa using hr), ih]
      simp [Ne.symm hr]

theorem loadPcLast_eq (s : State) (sb : Bool) :
    s.loadPcLast sb (L.map fun r => (r, w r)) =
      if 15 ∈ L then (if sb then s.exceptionReturn (w 15) else s.setPc (w 15)) else s := by
  rw [State.loadPcLast, find?_pc]
  by_cases h : 15 ∈ L <;> simp only [h, if_true, if_false]

end

/-! ## The whole of LDM -/

/-- The state after the accesses of LDM and its writeback, before any register is loaded. -/
def State.afterReads (s : State) (mode : BlockMode) (wb : Bool) (rn : Reg) (list : BitVec 16) : State :=
  State.blockWriteback { s with bus := s.bus ++ s.blockReads mode (s.rop 8 rn) list } wb rn
    (blockBase mode (s.rop 8 rn) (listedCount list))

/-- `loadMultiple` in the terms of the statements: each register with its word. -/
theorem loadMultiple_eq (s : State) (mode : BlockMode) (sb wb : Bool) (rn : Reg) (list : BitVec 16) :
    s.loadMultiple mode sb wb rn list =
      (writeLoaded (s.transferMode (sb && !list.getLsbD 15)) (s.afterReads mode wb rn list)
        ((transferredRegs list).map fun r => (r, s.slotWord mode (s.rop 8 rn) list r))).loadPcLast sb
        ((transferredRegs list).map fun r => (r, s.slotWord mode (s.rop 8 rn) list r)) := by
  have hslots := slots_transferredRegs mode (s.rop 8 rn) list
  simp only [State.loadMultiple, blockCount_eq, blockRegs_eq, hslots.loadedWords, hslots.noteReads]
  rfl

section
variable (s : State) (mode : BlockMode) (wb : Bool) (rn : Reg) (list : BitVec 16)

theorem afterReads_frame :
    (s.afterReads mode wb rn list).cpsr = s.cpsr ∧ (s.afterReads mode wb rn list).mem = s.mem ∧
      (s.afterReads mode wb rn list).bus = s.bus ++ s.blockReads mode (s.rop 8 rn) list ∧
      s.sameOther (s.afterReads mode wb rn list) := by
  obtain ⟨hcpsr, hmem, hbus, hsame⟩ := blockWriteback_frame
    { s with bus := s.bus ++ s.blockReads mode (s.rop 8 rn) list } wb rn (blockBase mode (s.rop 8 rn) (listedCount list))
  exact ⟨hcpsr, hmem, hbus, hsame⟩

theorem reg_afterReads (r : Reg) :
    (s.afterReads mode wb rn list).reg r =
      if wb = true ∧ rn = r then blockBase mode (s.rop 8 rn) (listedCount list) else s.reg r :=
  reg_blockWriteback _ wb rn r _

theorem afterReads_flush : (s.afterReads mode wb rn list).flush = (s.flush || (wb && decide (rn = 15))) :=
  blockWriteback_flush _ wb rn _

/-- The state after the loads into the registers of the current mode, r15 left aside. -/
def State.afterLoads : State :=
  writeLoaded s.cpsr.m (s.afterReads mode wb rn list)
    ((transferredRegs list).map fun r => (r, s.slotWord mode (s.rop 8 rn) list r))

theorem afterLoads_frame :
    (s.afterLoads mode wb rn list).flush = (s.flush || (wb && decide (rn = 15))) ∧
      (s.afterLoads mode wb rn list).cpsr = s.cpsr ∧ (s.afterLoads mode wb rn list).mem = s.mem ∧
      (s.afterLoads mode wb rn list).bus = s.bus ++ s.blockReads mode (s.rop 8 rn) list ∧
      s.sameOther (s.afterLoads mode wb rn list) := by
  obtain ⟨hcpsr, hmem, hbus, hsame⟩ := afterReads_frame s mode wb rn list
  obtain ⟨regs, hregs⟩ := writeLoaded_current_frame (L := transferredRegs list)
    (w := s.slotWord mode (s.rop 8 rn) list) (s.afterReads mode wb rn list)
  have hloads : s.afterLoads mode wb rn list = { s.afterReads mode wb rn list with regs := regs } := by
    rw [← hregs, hcpsr]
    rfl
  rw [hloads]
  exact ⟨afterReads_flush s mode wb rn list, hcpsr, hmem, hbus, hsame⟩

theorem reg_afterLoads (r : Reg) :
    (s.afterLoads mode wb rn list).reg r =
      if transferred list r = true ∧ r ≠ 15 then s.slotWord mode (s.rop 8 rn) list r
      else if wb = true ∧ rn = r then blockBase mode (s.rop 8 rn) (listedCount list) else s.reg r := by
  have hcpsr := (afterReads_frame s mode wb rn list).1
  have hreg := reg_writeLoaded_current (L := transferredRegs list) (w := s.slotWord mode (s.rop 8 rn) list)
    (s.afterReads mode wb rn list) r
  rw [hcpsr] at hreg
  rw [State.afterLoads, hreg, reg_afterReads]
  simp only [mem_transferredRegs]

theorem loadsBlock_afterLoads : loadsBlock s (s.afterLoads mode wb rn list) mode wb rn list := by
  refine ⟨fun r hr hin => ?_, fun hwb hrn hout => ?_, fun r hr hout hbase => ?_⟩ <;> rw [reg_afterLoads]
  · rw [if_pos ⟨hin, hr⟩]
  · rw [if_neg (by simp [hout]), if_pos ⟨hwb, rfl⟩]
  · rw [if_neg (by simp [hout]), if_neg fun ⟨hwb, heq⟩ => by simp [hbase heq.symm] at hwb]

end

theorem loadsBlock.setPc {s t : State} {mode : BlockMode} {wb : Bool} {rn : Reg} {list : BitVec 16}
    (h : loadsBlock s t mode wb rn list) (v : Word) : loadsBlock s (t.setPc v) mode wb rn list := by
  obtain ⟨hin, hbase, hout⟩ := h
  have hreg {r : Reg} (hr : r ≠ 15) : (t.setPc v).reg r = t.reg r := by rw [reg_setPc, if_neg (Ne.symm hr)]
  exact ⟨fun r hr hL => by rw [hreg hr, hin r hr hL], fun hwb hrn hL => by rw [hreg hrn, hbase hwb hrn hL],
    fun r hr hL hrn => by rw [hreg hr, hout r hr hL hrn]⟩

/-- LDM in terms of its loads into the current mode: without S, and with S where r15 is loaded. -/
theorem loadMultiple_of_current {s : State} {sb : Bool} {list : BitVec 16} (mode : BlockMode) (wb : Bool) (rn : Reg)
    (h : sb = false ∨ transferred list 15 = true) :
    s.loadMultiple mode sb wb rn list =
      if transferred list 15 = true then
        (if sb then (s.afterLoads mode wb rn list).exceptionReturn (s.slotWord mode (s.rop 8 rn) list 15)
          else (s.afterLoads mode wb rn list).setPc (s.slotWord mode (s.rop 8 rn) list 15))
      else s.afterLoads mode wb rn list := by
  have hloads : writeLoaded (s.transferMode (sb && !list.getLsbD 15)) (s.afterReads mode wb rn list)
      ((transferredRegs list).map fun r => (r, s.slotWord mode (s.rop 8 rn) list r)) = s.afterLoads mode wb rn list := by
    by_cases hempty : list = 0
    · subst hempty
      rfl
    · have huser : (sb && !list.getLsbD 15) = false := by
        rcases h with h | h
        · simp [h]
        · rw [transferred, if_neg hempty] at h
          rw [show list.getLsbD 15 = true from h]
          simp
      rw [huser]
      rfl
  rw [loadMultiple_eq, hloads, loadPcLast_eq]
  simp only [mem_transferredRegs]

/-- Settles O36: without S the loads are those of the current mode, and r15 is a branch. -/
theorem loadMultiple : Obligations.LoadMultiple := by
  intro s c mode wb rn list hc
  refine ⟨_, exec_eq_next_of_pass hc rfl (loadMultiple_of_current mode wb rn (.inl rfl)), ?_⟩
  obtain ⟨hflush, hcpsr, hmem, hbus, hsame⟩ := afterLoads_frame s mode wb rn list
  have hblock := loadsBlock_afterLoads s mode wb rn list
  cases hpc : transferred list 15
  case true => exact ⟨hblock.setPc _, by simp, by simp, hcpsr, hmem, hbus, hsame⟩
  case false =>
    refine ⟨hblock, ?_, ?_, hcpsr, hmem, hbus, hsame⟩
    · simp [reg_afterLoads]
    · simp [hflush]

/-- Settles O37: the loads come before the return, which finds the old SPSR. -/
theorem loadMultipleReturn : Obligations.LoadMultipleReturn := by
  intro s c mode wb rn list hc hpc
  refine ⟨s.afterLoads mode wb rn list, exec_eq_next_of_pass hc rfl ?_, loadsBlock_afterLoads s mode wb rn list, ?_⟩
  · rw [loadMultiple_of_current mode wb rn (.inr hpc), if_pos hpc, if_pos rfl, exceptionReturn_eq_returnAnswer]
  · exact (afterLoads_frame s mode wb rn list).2

theorem homeOf_modeUsr_of_banked {r : Reg} (hr : bankHolds .usr r = true) : homeOf modeUsr r = some .usr := by
  revert r; decide

/-- LDM with S in terms of its loads into the user bank, where r15 is not loaded. -/
theorem loadMultiple_of_user {s : State} {list : BitVec 16} (mode : BlockMode) (wb : Bool) (rn : Reg)
    (hpc : transferred list 15 = false) :
    s.loadMultiple mode true wb rn list =
      writeLoaded modeUsr (s.afterReads mode wb rn list)
        ((transferredRegs list).map fun r => (r, s.slotWord mode (s.rop 8 rn) list r)) := by
  have hL : 15 ∉ transferredRegs list := by simp [mem_transferredRegs, hpc]
  have hne : list ≠ 0 := by
    rintro rfl
    exact absurd hpc (by decide)
  have huser : (true && !list.getLsbD 15) = true := by
    rw [transferred, if_neg hne] at hpc
    rw [show list.getLsbD 15 = false from hpc]
    rfl
  rw [loadMultiple_eq, loadPcLast_eq, if_neg hL, huser, State.transferMode, if_pos rfl]

/-- Settles O38: a listed register is live where its home in the current mode is the user's, and else in the user
bank. -/
theorem loadMultipleUser : Obligations.LoadMultipleUser := by
  intro s c mode wb rn list hc hpc taken
  refine ⟨_, exec_eq_next_of_pass hc rfl (loadMultiple_of_user mode wb rn hpc), ?_⟩
  have hL : 15 ∉ transferredRegs list := by simp [mem_transferredRegs, hpc]
  obtain ⟨hcpsr, hmem, hbus, ⟨husr, hfiq, hirq, hsvc, habt, hund⟩, hspsrs, hrest⟩ :=
    afterReads_frame s mode wb rn list
  have hreg := reg_writeLoaded_user (w := s.slotWord mode (s.rop 8 rn) list) (s.afterReads mode wb rn list) hL
  have hshadow (q : Reg) := shadow_writeLoaded_user (q := q) (w := s.slotWord mode (s.rop 8 rn) list)
    (s.afterReads mode wb rn list) hL
  obtain ⟨regs, usr, hframe⟩ := writeLoaded_user_frame (L := transferredRegs list)
    (w := s.slotWord mode (s.rop 8 rn) list) (s.afterReads mode wb rn list)
  generalize writeLoaded modeUsr (s.afterReads mode wb rn list)
    ((transferredRegs list).map fun r => (r, s.slotWord mode (s.rop 8 rn) list r)) = t at hreg hshadow hframe ⊢
  have htcpsr : t.cpsr = s.cpsr := by rw [hframe]; exact hcpsr
  simp only [hcpsr, mem_transferredRegs, reg_afterReads] at hreg hshadow
  refine ⟨fun r hr => ?view, fun hwb hr => ?base, fun r hr hrn => ?live, fun r hr hout => ?cells, ?frame⟩
  case view =>
    obtain ⟨-, hviews, -⟩ := switchModeKeepsEveryView
    obtain ⟨hlive, hcell⟩ := hviews t modeUsr r
    rw [htcpsr] at hlive hcell
    by_cases hhome : homeOf s.cpsr.m r = homeOf modeUsr r
    · rw [hlive hhome.symm, hreg, if_pos ⟨hr, hhome⟩]
    · have hbanked := bankHolds_usr_of_homeOf_ne hhome
      have husr := homeOf_modeUsr_of_banked hbanked
      rw [hcell .usr husr (husr ▸ hhome), hshadow r hbanked, if_pos ⟨hr, hhome⟩]
  case base => rw [hreg, if_neg hr, if_pos ⟨hwb, rfl⟩]
  case live => rw [hreg, if_neg hr, if_neg fun ⟨hwb, heq⟩ => by simp [hrn heq.symm] at hwb]
  case cells =>
    rw [hshadow r hr, if_neg (by simp [hout])]
    exact congrArg (fun bank : Vector Word 7 => bank.toArray.getD (r.val - 8) 0) husr
  case frame =>
    rw [hframe]
    exact ⟨hfiq, hirq, hsvc, habt, hund, afterReads_flush s mode wb rn list, hcpsr, hmem, hbus, hspsrs, hrest⟩

end Sys2Proof.Machine
end

section
/-! The rules about the whole machine (R24, R31 to R35, R60, R75, R374, R379). `Ordinary` says what most instructions
leave unchanged, `Change` names the few mechanisms beyond it, and `exec_change` shows once, operation by operation, that
there are no others; each rule is then a case analysis over the mechanisms. -/

namespace Sys2Proof.Machine

/-! ## Ordinary changes -/

/-- A status word's fields other than the condition flags, and Q never cleared. -/
structure SameControl (p p' : Psr) : Prop where
  irq : p'.i = p.i
  fiq : p'.f = p.f
  thumb : p'.t = p.t
  mode : p'.m = p.m
  sticky : p.q = true → p'.q = true

/-- What an instruction leaves unchanged that is no exception, no return, no exchange of instruction sets and no MSR;
memory too, unless it stores. -/
structure Ordinary (stores : Bool) (s t : State) : Prop where
  control : SameControl s.cpsr t.cpsr
  other : s.sameOther t
  mem : stores = false → t.mem = s.mem

theorem SameControl.refl (p : Psr) : SameControl p p := ⟨rfl, rfl, rfl, rfl, id⟩

theorem SameControl.trans {p p' p'' : Psr} (h : SameControl p p') (k : SameControl p' p'') : SameControl p p'' :=
  ⟨k.irq.trans h.irq, k.fiq.trans h.fiq, k.thumb.trans h.thumb, k.mode.trans h.mode,
    fun hq => k.sticky (h.sticky hq)⟩

theorem sameOther_refl (s : State) : s.sameOther s :=
  ⟨⟨rfl, rfl, rfl, rfl, rfl, rfl⟩, ⟨rfl, rfl, rfl, rfl, rfl⟩, rfl, rfl, rfl, rfl, rfl, rfl, rfl⟩

namespace Ordinary

variable {b : Bool}

theorem sameBanks {s t : State} (h : Ordinary b s t) : s.sameBanks t := h.other.1

theorem sameSpsrs {s t : State} (h : Ordinary b s t) : s.sameSpsrs t := h.other.2.1

theorem sameRest {s t : State} (h : Ordinary b s t) : s.sameRest t := h.other.2.2

theorem refl (s : State) : Ordinary b s s := ⟨.refl _, sameOther_refl s, fun _ => rfl⟩

theorem trans {s t u : State} (h : Ordinary b s t) (k : Ordinary b t u) : Ordinary b s u :=
  ⟨h.control.trans k.control, sameOther_trans h.other k.other, fun hb => (k.mem hb).trans (h.mem hb)⟩

theorem of_cpsr_eq {s t : State} (hcpsr : t.cpsr = s.cpsr) (hother : s.sameOther t)
    (hmem : b = false → t.mem = s.mem) : Ordinary b s t := ⟨hcpsr ▸ .refl _, hother, hmem⟩

theorem setReg (s : State) (r : Reg) (v : Word) : Ordinary b s (s.setReg r v) :=
  of_cpsr_eq rfl (sameOther_refl s) fun _ => rfl

theorem setPc (s : State) (v : Word) : Ordinary b s (s.setPc v) := of_cpsr_eq rfl (sameOther_refl s) fun _ => rfl

theorem setCpsr {s : State} {p : Psr} (h : SameControl s.cpsr p) : Ordinary b s (s.setCpsr p) :=
  ⟨h, sameOther_refl s, fun _ => rfl⟩

theorem noteRead (s : State) (size : AccessSize) (a : Word) (x f : Bool) : Ordinary b s (s.noteRead size a x f) :=
  of_cpsr_eq rfl (sameOther_refl s) fun _ => rfl

theorem memWrite (s : State) (size : AccessSize) (a v : Word) (x f : Bool) :
    Ordinary true s (s.memWrite size a v x f) := of_cpsr_eq rfl (sameOther_refl s) nofun

theorem writeReg (s : State) (r : Reg) (v : Word) : Ordinary b s (s.writeReg r v) :=
  of_cpsr_eq (writeReg_cpsr s r v) (sameOther_writeReg s r v) fun _ => writeReg_mem s r v

theorem writeBase (s : State) (ta : TransferAddress) (r : Reg) : Ordinary b s (s.writeBase ta r) := by
  unfold State.writeBase
  split
  · exact writeReg s r _
  · exact refl s

theorem multiplyCarry (s : State) (long : Bool) : Ordinary b s (s.multiplyCarry long) := by
  obtain ⟨c, v, hcpsr, -, -⟩ := cpsr_multiplyCarry s long
  exact ⟨hcpsr ▸ ⟨rfl, rfl, rfl, rfl, id⟩, sameOther_multiplyCarry (sameOther_refl s) long,
    fun _ => multiplyCarry_mem s long⟩

/-! The shared operations of the instructions. -/

theorem setNZ (s : State) (r : Word) : Ordinary b s (s.setCpsr (s.cpsr.setNZ r)) := setCpsr ⟨rfl, rfl, rfl, rfl, id⟩

theorem setNZ64 (s : State) (r : BitVec 64) : Ordinary b s (s.setCpsr (s.cpsr.setNZ64 r)) :=
  setCpsr ⟨rfl, rfl, rfl, rfl, id⟩

theorem setLogic (s : State) (r : Word) (c : Bool) : Ordinary b s (s.setCpsr (s.cpsr.setLogic r c)) :=
  setCpsr ⟨rfl, rfl, rfl, rfl, id⟩

theorem setArith (s : State) (a : Sum) : Ordinary b s (s.setCpsr (s.cpsr.setArith a)) := setCpsr ⟨rfl, rfl, rfl, rfl, id⟩

theorem thumbLogic (s : State) (rd : LowReg) (v : Word) (c : Bool) : Ordinary b s (s.thumbLogic rd v c) :=
  (setReg s (lowReg rd) v).trans (setLogic (s.setReg (lowReg rd) v) v c)

theorem thumbArith (s : State) (rd : LowReg) (a : Sum) : Ordinary b s (s.thumbArith rd a) :=
  (setReg s (lowReg rd) a.result).trans (setArith (s.setReg (lowReg rd) a.result) a)

/-- Q of a saturating operation or an accumulate may only be set (R31). -/
theorem orQ (s : State) (sat : Bool) : Ordinary b s (s.setCpsr (s.cpsr.orQ sat)) :=
  setCpsr ⟨rfl, rfl, rfl, rfl, fun hq => by simp [Psr.orQ, hq]⟩

theorem multiplyResult (s : State) (sb : Bool) (rd : Reg) (r : Word) : Ordinary b s (s.multiplyResult sb rd r) := by
  unfold State.multiplyResult
  dsimp only
  split
  · exact ((writeReg s rd r).trans (setNZ _ r)).trans (multiplyCarry _ false)
  · exact writeReg s rd r

theorem writePair (s : State) (lo hi : Reg) (r : BitVec 64) : Ordinary b s (s.writePair lo hi r) :=
  (writeReg s lo _).trans (writeReg _ hi _)

theorem multiplyLongResult (s : State) (sb : Bool) (lo hi : Reg) (r : BitVec 64) :
    Ordinary b s (s.multiplyLongResult sb lo hi r) := by
  unfold State.multiplyLongResult
  dsimp only
  split
  · exact ((writePair s lo hi r).trans (setNZ64 _ r)).trans (multiplyCarry _ true)
  · exact writePair s lo hi r

theorem accumulateQ (s : State) (rd rn : Reg) (p : Int) : Ordinary b s (s.accumulateQ rd rn p) :=
  (writeReg s rd _).trans (orQ _ _)

theorem saturate (s : State) (rd : Reg) (v : Int) (clamped : Bool) : Ordinary b s (s.saturate rd v clamped) :=
  (writeReg s rd _).trans (orQ _ _)

theorem finishLoad (s : State) (size : AccessSize) (ta : TransferAddress) (forced : Bool) (rd rn : Reg) (data : Word) :
    Ordinary b s (s.finishLoad size ta forced rd rn data) :=
  ((noteRead s size _ _ _).trans (writeBase _ ta rn)).trans (writeReg _ rd data)

theorem finishStore (s : State) (size : AccessSize) (ta : TransferAddress) (forced : Bool) (rn : Reg) (v : Word) :
    Ordinary true s (s.finishStore size ta forced rn v) := (memWrite s size _ v _ _).trans (writeBase _ ta rn)

theorem loadPair (s : State) (ta : TransferAddress) (rd rn : Reg) : Ordinary b s (s.loadPair ta rd rn) :=
  ((((noteRead s .word _ _ _).trans (noteRead _ .word _ _ _)).trans (writeBase _ ta rn)).trans (writeReg _ rd _)).trans
    (writeReg _ (rd + 1) _)

theorem storePair (s : State) (ta : TransferAddress) (rd rn : Reg) : Ordinary true s (s.storePair ta rd rn) :=
  ((memWrite s .word _ _ _ _).trans (memWrite _ .word _ _ _ _)).trans (writeBase _ ta rn)

theorem swap (s : State) (size : AccessSize) (rd : Reg) (a v data : Word) : Ordinary true s (s.swap size rd a v data) :=
  ((noteRead s size a _ _).trans (memWrite _ size a v _ _)).trans (writeReg _ rd data)

/-- STM by its statement, under the condition that always passes. -/
theorem storeMultiple (s : State) (mode : BlockMode) (user wb : Bool) (rn : Reg) (list : BitVec 16) :
    Ordinary true s (s.storeMultiple mode user wb rn list) := by
  obtain ⟨-, hstm⟩ := Machine.storeMultiple
  obtain ⟨t, hexec, -, -, -, -, hcpsr, -, hother⟩ := hstm s .al mode user wb rn list rfl
  obtain rfl : s.storeMultiple mode user wb rn list = t := Host.Outcome.next.inj hexec
  exact of_cpsr_eq hcpsr hother nofun

theorem afterLoads (s : State) (mode : BlockMode) (wb : Bool) (rn : Reg) (list : BitVec 16) :
    Ordinary b s (s.afterLoads mode wb rn list) := by
  obtain ⟨-, hcpsr, hmem, -, hother⟩ := afterLoads_frame s mode wb rn list
  exact of_cpsr_eq hcpsr hother fun _ => hmem

theorem afterReads (s : State) (mode : BlockMode) (wb : Bool) (rn : Reg) (list : BitVec 16) :
    Ordinary b s (s.afterReads mode wb rn list) := by
  obtain ⟨hcpsr, hmem, -, hother⟩ := afterReads_frame s mode wb rn list
  exact of_cpsr_eq hcpsr hother fun _ => hmem

end Ordinary

/-! ## The mechanisms beyond -/

/-- What an instruction `i` can do to a state. -/
inductive Change (i : Instr) (s : State) : State → Prop
  | ordinary {t : State} (h : Ordinary (storesMemory i) s t) : Change i s t
  /-- a branch with a change of instruction set (R392) -/
  | exchange {u : State} (v : Word) (hi : exchanges i = true) (h : Ordinary (storesMemory i) s u) :
    Change i s (u.branchExchange v)
  /-- an exception (R525) -/
  | raise (e : Exception) (ret : Word) (hi : raisedBy i ≠ none) : Change i s (s.enter e ret)
  /-- a copy of an SPSR (R374) -/
  | restore {u : State} (v : Word) (hi : copiesSpsr i = true) (h : Ordinary (storesMemory i) s u) :
    Change i s (u.exceptionReturn v)
  /-- loads into the user bank (R337) -/
  | userBank {u : State} (regs : Vector Word 16) (usr : Vector Word 7) (hi : loadsUserBank i = true)
    (h : Ordinary (storesMemory i) s u) : Change i s { u with regs := regs, bankUsr := usr }
  | msrCpsr (p : Psr) (c : Cond) (fields : PsrFields) (src : MsrOperand) (hi : i = .msrCpsr c fields src) :
    Change i s (s.msrCpsr fields p)
  | msrSpsr (p : Psr) (c : Cond) (fields : PsrFields) (src : MsrOperand) (hi : i = .msrSpsr c fields src) :
    Change i s (s.msrSpsr fields p)

namespace Change

theorem whenCond {i : Instr} {s : State} {c : Cond} {effect : State → State} (h : Change i s (effect s)) :
    Change i s (s.whenCond c effect) := by
  unfold State.whenCond
  split
  · exact h
  · exact .ordinary (.refl s)

/-- Data processing is ordinary but with S = 1 and destination r15 (R211, R212). -/
theorem dpWrite {i : Instr} {s : State} {sb : Bool} {rd : Reg} {v : Word} {p : Psr}
    (hi : copiesSpsr i = (sb && rd == 15)) (hp : SameControl s.cpsr p) : Change i s (s.dpWrite sb rd v p) := by
  unfold State.dpWrite
  split
  · next hrd =>
    split
    · next hsb => exact .restore v (by simp [hi, hsb, hrd]) (.refl s)
    · exact .ordinary (.setPc s v)
  · split
    · exact .ordinary ((Ordinary.setReg s rd v).trans (.setCpsr hp))
    · exact .ordinary (.setReg s rd v)

theorem loadMultiple {i : Instr} {s : State} {mode : BlockMode} {sb wb : Bool} {rn : Reg} {list : BitVec 16}
    (hcopies : (sb && transferred list 15) = true → copiesSpsr i = true)
    (huser : (sb && !transferred list 15) = true → loadsUserBank i = true) :
    Change i s (s.loadMultiple mode sb wb rn list) := by
  by_cases h : sb = false ∨ transferred list 15 = true
  · rw [loadMultiple_of_current mode wb rn h]
    split
    · next hpc =>
      split
      · next hsb => exact .restore _ (hcopies (by simp [hsb, hpc])) (.afterLoads s mode wb rn list)
      · exact .ordinary ((Ordinary.afterLoads s mode wb rn list).trans (.setPc _ _))
    · exact .ordinary (.afterLoads s mode wb rn list)
  · obtain ⟨hsb, hpc⟩ : sb = true ∧ transferred list 15 = false := by simpa using h
    subst hsb
    obtain ⟨regs, usr, hframe⟩ := writeLoaded_user_frame (L := transferredRegs list)
      (w := s.slotWord mode (s.rop 8 rn) list) (s.afterReads mode wb rn list)
    rw [loadMultiple_of_user mode wb rn hpc, hframe]
    exact .userBank regs usr (huser (by simp [hpc])) (.afterReads s mode wb rn list)

end Change

/-- The list field says which of its forms LDM with S is (R337, log 8). -/
theorem copiesSpsr_ldm (c : Cond) (mode : BlockMode) (sb wb : Bool) (rn : Reg) (list : BitVec 16) :
    copiesSpsr (.ldm c mode sb wb rn list) = (sb && transferred list 15) := by
  by_cases h : list = 0
  · subst h
    cases sb <;> rfl
  · rw [copiesSpsr, transferred, if_neg h, beq_eq_false_iff_ne.mpr h, Bool.or_false]
    rfl

theorem loadsUserBank_ldm {sb : Bool} {list : BitVec 16} (c : Cond) (mode : BlockMode) (wb : Bool) (rn : Reg)
    (h : (sb && !transferred list 15) = true) : loadsUserBank (.ldm c mode sb wb rn list) = true := by
  by_cases hempty : list = 0 <;> simp_all [loadsUserBank, transferred]

/-- Every instruction, by the one shared operation that gives it its meaning. -/
theorem exec_change (i : Instr) (s : State) : ∃ t, exec i s = .next t ∧ Change i s t := by
  cases i
  case and | eor | sub | rsb | add | adc | sbc | rsc | orr | mov | bic | mvn =>
    exact ⟨_, rfl, .whenCond (.dpWrite rfl ⟨rfl, rfl, rfl, rfl, id⟩)⟩
  case tst | teq => exact ⟨_, rfl, .whenCond (.ordinary (.setLogic s _ _))⟩
  case cmp | cmn => exact ⟨_, rfl, .whenCond (.ordinary (.setArith s _))⟩
  case mul | mla => exact ⟨_, rfl, .whenCond (.ordinary (.multiplyResult s _ _ _))⟩
  case umull | umlal | smull | smlal => exact ⟨_, rfl, .whenCond (.ordinary (.multiplyLongResult s _ _ _ _))⟩
  case smlaxy | smlawy => exact ⟨_, rfl, .whenCond (.ordinary (.accumulateQ s _ _ _))⟩
  case smulwy | smulxy | mrs => exact ⟨_, rfl, .whenCond (.ordinary (.writeReg s _ _))⟩
  case smlalxy => exact ⟨_, rfl, .whenCond (.ordinary (.writePair s _ _ _))⟩
  case qadd | qsub | qdadd | qdsub => exact ⟨_, rfl, .whenCond (.ordinary (.saturate s _ _ _))⟩
  case ldr | ldrb | ldrt | ldrbt | ldrh | ldrsb | ldrsh =>
    exact ⟨_, rfl, .whenCond (.ordinary (.finishLoad s _ _ _ _ _ _))⟩
  case str | strb | strt | strbt | strh => exact ⟨_, rfl, .whenCond (.ordinary (.finishStore s _ _ _ _ _))⟩
  case ldrd => exact ⟨_, rfl, .whenCond (.ordinary (.loadPair s _ _ _))⟩
  case strd => exact ⟨_, rfl, .whenCond (.ordinary (.storePair s _ _ _))⟩
  case swp | swpb => exact ⟨_, rfl, .whenCond (.ordinary (.swap s _ _ _ _ _))⟩
  case ldm c mode sb wb rn list =>
    exact ⟨_, rfl, .whenCond
      (.loadMultiple (copiesSpsr_ldm c mode sb wb rn list).trans (loadsUserBank_ldm c mode wb rn))⟩
  case stm => exact ⟨_, rfl, .whenCond (.ordinary (.storeMultiple s _ _ _ _ _))⟩
  case msrCpsr => exact ⟨_, rfl, .whenCond (.msrCpsr _ _ _ _ rfl)⟩
  case msrSpsr => exact ⟨_, rfl, .whenCond (.msrSpsr _ _ _ _ rfl)⟩
  case b | tBCond => exact ⟨_, rfl, .whenCond (.ordinary (.setPc s _))⟩
  case bl => exact ⟨_, rfl, .whenCond (.ordinary ((Ordinary.setReg s 14 _).trans (.setPc _ _)))⟩
  case bx => exact ⟨_, rfl, .whenCond (.exchange _ rfl (.refl s))⟩
  case blx => exact ⟨_, rfl, .whenCond (.exchange _ rfl (.setReg s 14 _))⟩
  case swi | bkpt | undefined => exact ⟨_, rfl, .whenCond (.raise _ _ nofun)⟩
  case tLslImm | tLsrImm | tAsrImm | tMovImm | tAnd | tEor | tLslReg | tLsrReg | tAsrReg | tRorReg | tOrr | tBic |
      tMvn =>
    exact ⟨_, rfl, .ordinary (.thumbLogic s _ _ _)⟩
  case tAddReg | tSubReg | tAddImm3 | tSubImm3 | tAddImm8 | tSubImm8 | tAdc | tSbc | tNeg =>
    exact ⟨_, rfl, .ordinary (.thumbArith s _ _)⟩
  case tCmpImm | tCmpReg | tCmn | tCmpHi => exact ⟨_, rfl, .ordinary (.setArith s _)⟩
  case tTst => exact ⟨_, rfl, .ordinary (.setNZ s _)⟩
  case tMul => exact ⟨_, rfl, .ordinary (.multiplyResult s _ _ _)⟩
  case tAddHi | tMovHi => exact ⟨_, rfl, .ordinary (.writeReg s _ _)⟩
  case tBx => exact ⟨_, rfl, .exchange _ rfl (.refl s)⟩
  case tBlx => exact ⟨_, rfl, .exchange _ rfl (.setReg s 14 _)⟩
  case tLdrPc | tLdrReg | tLdrbReg | tLdsbReg | tLdrhReg | tLdshReg | tLdrImm | tLdrbImm | tLdrhImm | tLdrSp =>
    exact ⟨_, rfl, .ordinary (.finishLoad s _ _ _ _ _ _)⟩
  case tStrReg | tStrbReg | tStrhReg | tStrImm | tStrbImm | tStrhImm | tStrSp =>
    exact ⟨_, rfl, .ordinary (.finishStore s _ _ _ _ _)⟩
  case tAddPc | tAddSp | tAddSpImm | tSubSpImm => exact ⟨_, rfl, .ordinary (.setReg s _ _)⟩
  case tPush | tStmia => exact ⟨_, rfl, .ordinary (.storeMultiple s _ _ _ _ _)⟩
  case tPop | tLdmia => exact ⟨_, rfl, .loadMultiple nofun nofun⟩
  case tSwi | tBkpt | tUndefined => exact ⟨_, rfl, .raise _ _ nofun⟩
  case tB => exact ⟨_, rfl, .ordinary (.setPc s _)⟩
  case tBlHigh =>
    refine ⟨_, rfl, ?_⟩
    split
    · exact .ordinary (.setReg s 14 _)
    · exact .ordinary ((Ordinary.setReg s 14 _).trans (.setPc _ _))
  case tBlLow => exact ⟨_, rfl, .ordinary ((Ordinary.setReg s 14 _).trans (.setPc _ _))⟩

theorem change_of_exec {i : Instr} {s t : State} (h : exec i s = .next t) : Change i s t := by
  obtain ⟨t', ht', hchange⟩ := exec_change i s
  obtain rfl : t = t' := Host.Outcome.next.inj (h.symm.trans ht')
  exact hchange

/-! ## The mechanisms, field by field -/

theorem copiesSpsr_of_raisedBy {i : Instr} (h : raisedBy i ≠ none) : copiesSpsr i = false := by
  revert h
  cases i <;> simp [raisedBy, copiesSpsr]

/-- MSR to CPSR is a change of flags alone, or also a mode switch and a branch (R377). -/
theorem msrCpsr_cases (s : State) (fields : PsrFields) (p : Psr) :
    ((fields.c && decide (s.cpsr.m ≠ modeUsr)) = false ∧
      s.msrCpsr fields p = s.setCpsr (if fields.f then s.cpsr.withFlagsOf p else s.cpsr)) ∨
    ((fields.c && decide (s.cpsr.m ≠ modeUsr)) = true ∧
      s.msrCpsr fields p = ((s.switchMode p.m).setCpsr
        ((if fields.f then s.cpsr.withFlagsOf p else s.cpsr).withControlOf p)).setPc (s.instrAddr + 4)) := by
  cases h : (fields.c && decide (s.cpsr.m ≠ modeUsr))
  · exact .inl ⟨rfl, msrCpsr_of_no_control p h⟩
  · exact .inr ⟨rfl, msrCpsr_of_control p h⟩

/-- MSR to SPSR does nothing where there is none (R378). -/
theorem msrSpsr_cases (s : State) (fields : PsrFields) (p : Psr) :
    s.msrSpsr fields p = s ∨
      bankOf s.cpsr.m ≠ .usr ∧ ∃ q, s.msrSpsr fields p = s.setSpsrOf (bankOf s.cpsr.m) q := by
  unfold State.msrSpsr
  cases h : s.spsr with
  | none => exact .inl rfl
  | some old => exact .inr ⟨bankOf_ne_usr_of_spsr h, _, rfl⟩

theorem sameSpsrs_exceptionReturn (s : State) (v : Word) : s.sameSpsrs (s.exceptionReturn v) := by
  simp [State.exceptionReturn, State.sameSpsrs]

theorem sameRest_exceptionReturn (s : State) (v : Word) : s.sameRest (s.exceptionReturn v) := by
  simp [State.exceptionReturn, State.sameRest]

theorem exceptionReturn_mem (s : State) (v : Word) : (s.exceptionReturn v).mem = s.mem := by
  simp [State.exceptionReturn]

theorem exceptionReturn_flush (s : State) (v : Word) : (s.exceptionReturn v).flush = true := by
  simp [State.exceptionReturn]

/-- User mode has no SPSR to copy, so its return is a branch (R34). -/
theorem exceptionReturn_of_user {s : State} (h : s.cpsr.m = modeUsr) (v : Word) : s.exceptionReturn v = s.setPc v := by
  have hnone : s.spsr = none := by
    rw [State.spsr, h]
    rfl
  simp only [State.exceptionReturn, State.restoreCpsr, hnone]

theorem sameSpsrs_refl (s : State) : s.sameSpsrs s := ⟨rfl, rfl, rfl, rfl, rfl⟩

theorem sameRest_refl (s : State) : s.sameRest s := ⟨rfl, rfl, rfl, rfl, rfl, rfl, rfl⟩

theorem sameRest_trans {s t u : State} (h : s.sameRest t) (k : t.sameRest u) : s.sameRest u := by
  simp only [State.sameRest] at *
  simp_all

theorem sameSpsrs_trans {s t u : State} (h : s.sameSpsrs t) (k : t.sameSpsrs u) : s.sameSpsrs u := by
  simp only [State.sameSpsrs] at *
  simp_all

theorem sameSpsrs_msrCpsr (s : State) (fields : PsrFields) (p : Psr) : s.sameSpsrs (s.msrCpsr fields p) := by
  rcases msrCpsr_cases s fields p with ⟨-, h⟩ | ⟨-, h⟩ <;> rw [h]
  · exact sameSpsrs_refl s
  · simp [State.sameSpsrs]

theorem sameRest_msrCpsr (s : State) (fields : PsrFields) (p : Psr) : s.sameRest (s.msrCpsr fields p) := by
  rcases msrCpsr_cases s fields p with ⟨-, h⟩ | ⟨-, h⟩ <;> rw [h]
  · exact sameRest_refl s
  · simp [State.sameRest]

theorem msrCpsr_mem (s : State) (fields : PsrFields) (p : Psr) : (s.msrCpsr fields p).mem = s.mem := by
  rcases msrCpsr_cases s fields p with ⟨-, h⟩ | ⟨-, h⟩ <;> simp [h]

/-- MSR to CPSR never writes T (R377). -/
theorem msrCpsr_thumb (s : State) (fields : PsrFields) (p : Psr) : (s.msrCpsr fields p).cpsr.t = s.cpsr.t := by
  rcases msrCpsr_cases s fields p with ⟨-, h⟩ | ⟨-, h⟩ <;> rw [h] <;> cases fields.f <;> rfl

theorem sameBanks_msrSpsr (s : State) (fields : PsrFields) (p : Psr) : s.sameBanks (s.msrSpsr fields p) := by
  rcases msrSpsr_cases s fields p with h | ⟨-, q, h⟩ <;> simp [h, State.sameBanks]

theorem sameRest_msrSpsr (s : State) (fields : PsrFields) (p : Psr) : s.sameRest (s.msrSpsr fields p) := by
  rcases msrSpsr_cases s fields p with h | ⟨-, q, h⟩ <;> simp [h, State.sameRest]

theorem msrSpsr_mem (s : State) (fields : PsrFields) (p : Psr) : (s.msrSpsr fields p).mem = s.mem := by
  rcases msrSpsr_cases s fields p with h | ⟨-, q, h⟩ <;> simp [h]

theorem msrSpsr_cpsr (s : State) (fields : PsrFields) (p : Psr) : (s.msrSpsr fields p).cpsr = s.cpsr := by
  rcases msrSpsr_cases s fields p with h | ⟨-, q, h⟩ <;> simp [h]

/-! ## The rules -/

/-- Settles O30: ordinary changes may only set Q, and the other mechanisms keep it or are the two exceptions. -/
theorem qSticky : Obligations.QSticky := by
  refine ⟨fun i s t hexec hq => ?sticky, fun c p q => by cases c <;> rfl⟩
  case sticky =>
    cases change_of_exec hexec with
    | ordinary h => exact .inl (h.control.sticky hq)
    | exchange v hi h => exact .inl (h.control.sticky hq)
    | raise e ret hi => exact .inl (by rw [cpsr_enter]; exact hq)
    | restore v hi h => exact .inr (.inr hi)
    | userBank regs usr hi h => exact .inl (h.control.sticky hq)
    | msrSpsr p c fields src hi => exact .inl (by rw [msrSpsr_cpsr]; exact hq)
    | msrCpsr p c fields src hi =>
      subst hi
      cases hf : fields.f
      case true => exact .inr (.inl hf)
      case false =>
        rcases msrCpsr_cases s fields p with ⟨-, h⟩ | ⟨-, h⟩ <;> rw [h, hf] <;> exact .inl hq

/-- Settles O54: in User mode a return is a branch and MSR writes flags at most. -/
theorem userModeCannotChangeControl : Obligations.UserModeCannotChangeControl := by
  intro i s t husr hraised hexec
  cases change_of_exec hexec with
  | ordinary h => exact ⟨h.control.irq, h.control.fiq, h.control.mode, h.sameSpsrs⟩
  | exchange v hi h => exact ⟨h.control.irq, h.control.fiq, h.control.mode, h.sameSpsrs⟩
  | raise e ret hi => exact absurd hraised hi
  | restore v hi h =>
    rw [exceptionReturn_of_user (h.control.mode.trans husr)]
    exact ⟨h.control.irq, h.control.fiq, h.control.mode, h.sameSpsrs⟩
  | userBank regs usr hi h => exact ⟨h.control.irq, h.control.fiq, h.control.mode, h.sameSpsrs⟩
  | msrCpsr p c fields src hi =>
    rcases msrCpsr_cases s fields p with ⟨-, h⟩ | ⟨hcontrol, -⟩
    · rw [h]
      refine ⟨?_, ?_, ?_, sameSpsrs_refl s⟩ <;> cases fields.f <;> rfl
    · simp [husr] at hcontrol
  | msrSpsr p c fields src hi =>
    rcases msrSpsr_cases s fields p with h | ⟨hbank, -⟩
    · rw [h]
      exact ⟨rfl, rfl, rfl, sameSpsrs_refl s⟩
    · exact absurd (by rw [husr]; rfl) hbank

/-- Settles O55. -/
theorem tChangesOnlyWithDiscard : Obligations.TChangesOnlyWithDiscard := by
  intro i s t hexec hne
  cases change_of_exec hexec with
  | ordinary h => exact absurd h.control.thumb hne
  | exchange v hi h => exact ⟨rfl, .inl hi⟩
  | raise e ret hi => exact ⟨setPc_flush _ _, .inr (.inl hi)⟩
  | restore v hi h => exact ⟨exceptionReturn_flush _ v, .inr (.inr hi)⟩
  | userBank regs usr hi h => exact absurd h.control.thumb hne
  | msrCpsr p c fields src hi => exact absurd (msrCpsr_thumb s fields p) hne
  | msrSpsr p c fields src hi => exact absurd (congrArg Psr.t (msrSpsr_cpsr s fields p)) hne

/-- Where all SPSRs stay there is nothing more to show of the rule about them. -/
theorem spsrRule_of_sameSpsrs {i : Instr} {s t : State} (h : s.sameSpsrs t) :
    (s.sameSpsrs t ∨ raisedBy i ≠ none ∨ ∃ c fields src, i = .msrSpsr c fields src) ∧
    ∀ b, b ≠ bankOf t.cpsr.m ∨ copiesSpsr i = true → t.spsrOf b = s.spsrOf b :=
  ⟨.inl h, fun b _ => spsrOf_eq_of_sameSpsrs h b⟩

/-- Settles O56: the entry writes the SPSR of the mode it enters, MSR that of the mode it stays in. -/
theorem spsrWrittenOnlyByEntryOrMsr : Obligations.SpsrWrittenOnlyByEntryOrMsr := by
  intro i s t hexec
  cases change_of_exec hexec with
  | ordinary h => exact spsrRule_of_sameSpsrs h.sameSpsrs
  | exchange v hi h => exact spsrRule_of_sameSpsrs h.sameSpsrs
  | restore v hi h => exact spsrRule_of_sameSpsrs (sameSpsrs_trans h.sameSpsrs (sameSpsrs_exceptionReturn _ v))
  | userBank regs usr hi h => exact spsrRule_of_sameSpsrs h.sameSpsrs
  | msrCpsr p c fields src hi => exact spsrRule_of_sameSpsrs (sameSpsrs_msrCpsr s fields p)
  | raise e ret hi =>
    refine ⟨.inr (.inl hi), fun b hb => ?_⟩
    rw [copiesSpsr_of_raisedBy hi, cpsr_enter] at hb
    rw [spsrOf_enter, if_neg (by simpa using hb)]
  | msrSpsr p c fields src hi =>
    refine ⟨.inr (.inr ⟨c, fields, src, hi⟩), fun b hb => ?_⟩
    subst hi
    rcases msrSpsr_cases s fields p with h | ⟨hbank, q, h⟩ <;> rw [h] at hb ⊢
    rw [setSpsrOf_cpsr] at hb
    rw [spsrOf_setSpsrOf hbank, if_neg (by simpa [copiesSpsr] using hb)]

/-- Settles O57. -/
theorem memoryWrittenOnlyByStores : Obligations.MemoryWrittenOnlyByStores := by
  intro i s t hexec
  cases change_of_exec hexec with
  | ordinary h => exact ⟨h.mem, h.sameRest⟩
  | exchange v hi h => exact ⟨h.mem, h.sameRest⟩
  | raise e ret hi => exact ⟨fun _ => mem_enter s e ret, sameRest_enter s e ret⟩
  | restore v hi h =>
    exact ⟨fun hi => (exceptionReturn_mem _ v).trans (h.mem hi),
      sameRest_trans h.sameRest (sameRest_exceptionReturn _ v)⟩
  | userBank regs usr hi h => exact ⟨h.mem, h.sameRest⟩
  | msrCpsr p c fields src hi => exact ⟨fun _ => msrCpsr_mem s fields p, sameRest_msrCpsr s fields p⟩
  | msrSpsr p c fields src hi => exact ⟨fun _ => msrSpsr_mem s fields p, sameRest_msrSpsr s fields p⟩

/-- Settles O58. -/
theorem banksMoveOnlyByModeSwitch : Obligations.BanksMoveOnlyByModeSwitch := by
  intro i s t hexec
  cases change_of_exec hexec with
  | ordinary h => exact .inl h.sameBanks
  | exchange v hi h => exact .inl h.sameBanks
  | raise e ret hi => exact .inr (.inl hi)
  | restore v hi h => exact .inr (.inr (.inl hi))
  | userBank regs usr hi h => exact .inr (.inr (.inr (.inl hi)))
  | msrSpsr p c fields src hi => exact .inl (sameBanks_msrSpsr s fields p)
  | msrCpsr p c fields src hi =>
    rcases msrCpsr_cases s fields p with ⟨-, h⟩ | ⟨hcontrol, -⟩
    · rw [h]
      exact .inl ⟨rfl, rfl, rfl, rfl, rfl, rfl⟩
    · exact .inr (.inr (.inr (.inr ⟨c, fields, src, hi, (Bool.and_eq_true_iff.mp hcontrol).1⟩)))

end Sys2Proof.Machine
end
